-- ==== Sys2Proof/Word.lean ====
section
/-! DEFINITION. The words of the part: link bytes, device times, and its wrapping and saturating counts. -/

namespace Sys2Proof

/-- One byte on the serial link (R137). -/
abbrev Byte := BitVec 8

/-- A device time: a 32-bit count of microseconds that wraps (R17). -/
abbrev Time := BitVec 32

/-- A 16-bit count, saturating or wrapping as its rule says (R24, R63, R106, R137). -/
abbrev Count16 := BitVec 16

/-- A 32-bit wrapping count: accepted edges (R19), cycles completed (R31). -/
abbrev Count32 := BitVec 32

end Sys2Proof
end

