-- ==== Sys2Proof/Config.lean ====
section
/-! DEFINITION. What the part fixes (its capacities and time bounds) and the values the manual leaves open. -/

namespace Sys2Proof.Config

/-- Steps in the Step Pool (R4). -/
abbrev poolSteps : Nat := 96
/-- Largest min of a step (R3). -/
abbrev maxStepMin : Nat := 16777214
/-- Largest max of a step (R3). -/
abbrev maxStepMax : Nat := 16777215
/-- Largest filter time, in microseconds (R19). -/
abbrev maxFilter : Nat := 1023
/-- Filter time while in reset and in the defaults (R29, R135). -/
abbrev defaultFilter : Nat := 20
/-- Places of the Notice Queue open to notices not of kind TRIP (R109). -/
abbrev nonTripPlaces : Nat := 39
/-- Largest number of notices per FETCH (R114). -/
abbrev maxFetch : Nat := 8
/-- Frames the inbox holds (R142). -/
abbrev inboxPlaces : Nat := 2
/-- Replies the reply queue holds (R144). -/
abbrev replyPlaces : Nat := 4
/-- The gap expiry's distance from the byte before it, in microseconds (R140). -/
abbrev gapTime : Nat := 2001
/-- A save completes no later than this after its acceptance, in microseconds (R126). -/
abbrev saveBound : Nat := 80000
/-- An erase completes no later than this after its acceptance, in microseconds (R128). -/
abbrev eraseBound : Nat := 50000
/-- The load ends no later than this after STARTING began, in microseconds (R135). -/
abbrev loadBound : Nat := 5000

/-- FREE VALUE (log 1). Which of several internal events due at one device time is taken first: the rules let either
be. Applied to the counter `draws` of the state. -/
opaque eventChoice : Nat → Nat

/-- FREE VALUE (log 22). The order in which the channels of one line act on one accepted edge or on one new filter time: the
rules take their offers and trips in either order (R23, R87, R113). Applied to the counter `draws` of the state. -/
opaque channelOrder : Nat → Nat

/-- FREE VALUE (log 12). Whether the load writes the plan items into their blocks at this moment of STARTING: the rules give
no instant for it before the end of the load (R135, R169). Applied to the counter `draws` of the state. -/
opaque planWritten : Nat → Bool

/-- FREE VALUE (log 9). Whether the read-back of a save matches when the save completes only at its bound:
"The part's state fixes neither the instant within that bound nor whether the read-back matches" (R126). Applied to the
counter `draws` of the state. -/
opaque readBackMatches : Nat → Bool

/-- FREE VALUE (log 18). The three bytes the part writes for an observed duration that does not fit in them. The rules say
it does not arise, and a SET_LINE that lowers F can bring it about (log 11). -/
opaque oversizeDuration : Nat → BitVec 24

end Sys2Proof.Config
end

