-- ==== Sys2Proof/Syntax.lean ====
section
/-! DEFINITION. The commands of the part: one constructor per row of the table of operations and events. -/

namespace Sys2Proof

/-- A logic level of a line (R1, R19). -/
inductive Level where
  | low
  | high
  deriving DecidableEq, Repr

/-- A good request frame as the executor reads it: TAG, request code, parameter part (R138, R172). -/
structure Frame where
  tag : Byte
  code : Byte
  params : List Byte
  deriving DecidableEq, Repr

/-- The commands: each is one whole and indivisible step of the part (95_what_each_step_holds.md). A request row carries
the TAG and the parameter bytes of its frame (R172, log 3). An event row carries what the part's state does not fix: the
line, channel or output it belongs to, the level found, the byte received, whether a save's read-back matches (R126). -/
inductive Instr where
  /-- ARM (R36, R157). -/
  | arm (tag : Byte) (params : List Byte)
  /-- CLEAR_CHANNEL (R35, R158). -/
  | clearChannel (tag : Byte) (params : List Byte)
  /-- CLEAR_OBSERVED (R53). -/
  | clearObserved (tag : Byte) (params : List Byte)
  /-- CONFIGURE_CHANNEL (R34, R159). -/
  | configureChannel (tag : Byte) (params : List Byte)
  /-- DEFINE_PATTERN (R7 to R13, R160). -/
  | definePattern (tag : Byte) (params : List Byte)
  /-- DELETE_PATTERN (R14, R161). -/
  | deletePattern (tag : Byte) (params : List Byte)
  /-- DISARM (R40). -/
  | disarm (tag : Byte) (params : List Byte)
  /-- ERASE_PLAN (R127). -/
  | erasePlan (tag : Byte) (params : List Byte)
  /-- FETCH (R114, R162). -/
  | fetch (tag : Byte) (params : List Byte)
  /-- IDENTIFY (R163). -/
  | identify (tag : Byte) (params : List Byte)
  /-- INJECT (R73). -/
  | inject (tag : Byte) (params : List Byte)
  /-- PAUSE (R38). -/
  | pause (tag : Byte) (params : List Byte)
  /-- READ_CHANNEL (R51). -/
  | readChannel (tag : Byte) (params : List Byte)
  /-- READ_LINE (R28). -/
  | readLine (tag : Byte) (params : List Byte)
  /-- READ_OBSERVED (R52). -/
  | readObserved (tag : Byte) (params : List Byte)
  /-- READ_OUTPUT (R102). -/
  | readOutput (tag : Byte) (params : List Byte)
  /-- READ_PATTERN (R15). -/
  | readPattern (tag : Byte) (params : List Byte)
  /-- READ_REACTION (R79). -/
  | readReaction (tag : Byte) (params : List Byte)
  /-- REARM (R70, R72, R150, R164). -/
  | rearm (tag : Byte) (params : List Byte)
  /-- RESET, the request (R146, R165). -/
  | resetRequest (tag : Byte) (params : List Byte)
  /-- RESUME (R39). -/
  | resume (tag : Byte) (params : List Byte)
  /-- SAVE_PLAN (R125, R166). -/
  | savePlan (tag : Byte) (params : List Byte)
  /-- SET_ATTENTION (R118). -/
  | setAttention (tag : Byte) (params : List Byte)
  /-- SET_LINE (R25 to R27). -/
  | setLine (tag : Byte) (params : List Byte)
  /-- SET_LINK (R149). -/
  | setLink (tag : Byte) (params : List Byte)
  /-- SET_OUTPUT (R97 to R99). -/
  | setOutput (tag : Byte) (params : List Byte)
  /-- SET_REACTION (R77, R78, R167). -/
  | setReaction (tag : Byte) (params : List Byte)
  /-- STATUS (R168, R169). -/
  | status (tag : Byte) (params : List Byte)
  /-- RAW_CHANGE (R20, R21): a sample of input line `line` finds `level`. -/
  | rawChange (line : Fin 8) (level : Level)
  /-- QUALIFICATION_EXPIRY of a line (R22). -/
  | qualificationExpiry (line : Fin 8)
  /-- STEP_DEADLINE of a channel (R49, R59). -/
  | stepDeadline (channel : Fin 8)
  /-- ACQUIRE_EXPIRY of a channel (R37, R60). -/
  | acquireExpiry (channel : Fin 8)
  /-- FRAME_END_EXPIRY of an output (R95). -/
  | frameEndExpiry (output : Fin 6)
  /-- SAVE_COMPLETION (R126): the read-back and the check value are right, or there is a mismatch. -/
  | saveCompletion (readBackMatches : Bool)
  /-- SECOND_BANK_INVALIDATION (R128). -/
  | secondBankInvalidation
  /-- ERASE_COMPLETION (R128). -/
  | eraseCompletion
  /-- POWER_ON (R131): the supply comes up. -/
  | powerOn
  /-- RESET_LINE (R131): RESETn is asserted with the supply stable. -/
  | resetLine
  /-- RESET_END (R131, R132): RESETn is released, or the supply is stable with RESETn high. -/
  | resetEnd
  /-- PLAN_LOAD_END (R133 to R136). -/
  | planLoadEnd
  /-- BYTE_ARRIVAL (R139, R141, R142): a byte arrives on RXD. -/
  | byteArrival (byte : Byte)
  /-- FRAMING_FAULT (R140): a byte on RXD with its stop bit low. -/
  | framingFault
  /-- GAP_EXPIRY (R140). -/
  | gapExpiry
  /-- REPLY_SENT (R144, R146): the last byte of the front reply has been sent. -/
  | replySent
  /-- SILENCE_EXPIRY (R148). -/
  | silenceExpiry
  /-- UNKNOWN_REQUEST_CODE (R145): the executor takes a frame whose code names none of the 28 requests. -/
  | unknownRequestCode (tag code : Byte) (params : List Byte)
  deriving DecidableEq, Repr

end Sys2Proof
end

