-- ==== Sys2Proof/Machine/State.lean ====
section
/-! DEFINITION. The state of the part as plain data: every record, count, queue, mode and pin the spec gives it, the plan
image of a bank, the queue of waiting commands, and the state after reset. -/

namespace Sys2Proof.Machine

/-- Why a step would fault. No rule of the spec stops the part, so there is no constructor: no meaning faults. -/
inductive Fault where
  deriving DecidableEq, Repr

/-- Why a command has no next state. -/
inductive Refusal where
  /-- Raised by an arm of exec for a command that has no meaning yet; no arm raises it now. Safe: the machine stops. -/
  | notModelled (mnemonic : String)
  deriving DecidableEq, Repr

/-- The device states (R132). -/
inductive DeviceState where
  | reset
  | starting
  | running
  deriving DecidableEq, Repr

/-- The kinds of reset, and the cause a STARTED notice reports (R131). -/
inductive ResetCause where
  | powerOn
  | resetLine
  | resetRequest
  deriving DecidableEq, Repr

/-! Patterns (R1 to R4) -/

/-- A step record: min and max in microseconds, and the mark (R3). -/
structure PatternStep where
  min : Nat
  max : Nat
  mark : Bool
  deriving DecidableEq, Repr

/-- A pattern: the start level and the steps in cycle order; the step count is the list's length (R1). -/
structure Pattern where
  startLevel : Level
  steps : List PatternStep
  deriving DecidableEq, Repr

/-! Input lines (R19) -/

/-- A Line Qualifier's record, the level on its pin, and whether the line has been sampled in this microsecond. -/
structure Line where
  /-- The level on SINi now; sampled at RUNNING entry (R29) and once every microsecond after it (R19). -/
  pin : Level
  /-- The sample of the present microsecond has been taken (R19, log 8). -/
  sampled : Bool
  /-- Filter time F, 0 to 1023 microseconds. -/
  filter : Nat
  raw : Level
  filtered : Level
  /-- The run-start time while a qualifying run is held. -/
  runStart : Option Time
  runts : Count16
  edges : Count32
  deriving DecidableEq, Repr

/-! Channels (R30 to R33, R56, R66) -/

/-- The configuration record of a channel (R30). The report mask has the weights of R170. -/
structure ChannelConfig where
  line : Fin 8
  pattern : Fin 16
  strikeLimit : Nat
  forgive : Nat
  acquire : Option Nat
  report : BitVec 5
  bootArmed : Bool
  deriving DecidableEq, Repr

/-- The deviation kinds (R55). -/
inductive DeviationKind where
  | early
  | late
  | noSignal
  | injected
  deriving DecidableEq, Repr

/-- A deviation record (R56). -/
structure Deviation where
  kind : DeviationKind
  step : Option Nat
  measured : Option Nat
  time : Time
  deriving DecidableEq, Repr

/-- The four deviation counts (R31, R63). -/
structure DeviationCounts where
  early : Count16
  late : Count16
  noSignal : Count16
  injected : Count16
  deriving DecidableEq, Repr

/-- An entry of an observed table (R32). -/
structure ObservedEntry where
  count : Count16
  shortest : Option Nat
  longest : Option Nat
  deriving DecidableEq, Repr

/-- A deadline closure: the step a deadline closed and the closing time (R66). -/
structure Closure where
  step : Nat
  closing : Time
  deriving DecidableEq, Repr

/-- The channel states with what each holds (R31, R33): the acquire expiry in SEEKING when a limit is present, the step
index, step start and step deadline in TRACKING. -/
inductive ChannelState where
  | idle
  | seeking (acquireExpiry : Option Time)
  | tracking (step : Nat) (start deadline : Time)
  | paused
  | tripped
  deriving DecidableEq, Repr

/-- A supervision channel: configuration, runtime record, observed table (empty without a configuration), closure. -/
structure Channel where
  config : Option ChannelConfig
  state : ChannelState
  strikes : Nat
  goodRun : Nat
  cycles : Count32
  counts : DeviationCounts
  last : Option Deviation
  observed : List ObservedEntry
  closure : Option Closure
  deriving DecidableEq, Repr

/-! Reactions, claims, outputs (R75, R80, R92) -/

/-- A trip source (R76). -/
inductive Source where
  | channel (c : Fin 8)
  | link
  deriving DecidableEq, Repr

/-- A drive: LEVEL LOW, LEVEL HIGH, or DUTY d (R75). -/
inductive Drive where
  | level (l : Level)
  | duty (d : BitVec 12)
  deriving DecidableEq, Repr

/-- A reaction (R75). -/
structure Reaction where
  source : Source
  output : Fin 6
  drive : Drive
  priority : Fin 8
  deriving DecidableEq, Repr

/-- A claim in an output's claim list (R80). -/
structure Claim where
  index : Fin 32
  source : Source
  priority : Fin 8
  drive : Drive
  deriving DecidableEq, Repr

/-- An Output Generator's record (R92). -/
structure Generator where
  base : Drive
  rate : Fin 5
  applied : Drive
  pending : Bool
  frameStart : Option Time
  deriving DecidableEq, Repr

/-! Notices (R106, R107) -/

/-- The origin of a notice: a trip source or DEVICE (R107). -/
inductive NoticeSource where
  | trip (src : Source)
  | device
  deriving DecidableEq, Repr

/-- The outcome of the plan load (R121, R135). -/
inductive PlanOutcome where
  | none
  | bankA
  | bankB
  | rejected
  deriving DecidableEq, Repr

/-- The store operations a STORE notice reports (R107). -/
inductive StoreOperation where
  | save
  | erase
  deriving DecidableEq, Repr

/-- The kind of a notice with the details of its kind (R107). -/
inductive NoticeBody where
  | deviation (kind : DeviationKind) (step measured : Option Nat) (strikes : Nat)
  | tripChannel (kind : DeviationKind) (step measured : Option Nat) (strikes claims : Nat)
  | tripLink (limit claims : Nat)
  | mark (step measured : Nat) (cycles : Count32)
  | started (cause : ResetCause) (outcome : PlanOutcome) (generation : Option Count32) (bootArmed : Nat)
  | store (operation : StoreOperation) (done : Bool) (generation : Option Count32)
  deriving DecidableEq, Repr

/-- A notice record (R107). -/
structure Notice where
  sequence : Count16
  time : Time
  source : NoticeSource
  body : NoticeBody
  deriving DecidableEq, Repr

/-- The Notice Queue (R106). The attention mask has the weights of R170. -/
structure Queue where
  notices : List Notice
  nextSeq : Count16
  dropped : Count16
  mask : BitVec 3
  deriving DecidableEq, Repr

/-! The Plan Store (R122, R123). An image holds raw values, coded as the link codes them (R170), so that a bank can also
hold content that fails the checks of R134 (R132, log 10). -/

/-- A step of an image. -/
structure ImageStep where
  min : Nat
  max : Nat
  mark : Nat
  deriving DecidableEq, Repr

/-- A pattern of an image, under its id. -/
structure ImagePattern where
  id : Nat
  startLevel : Nat
  steps : List ImageStep
  deriving DecidableEq, Repr

/-- A channel configuration of an image. -/
structure ImageConfig where
  line : Nat
  pattern : Nat
  strikeLimit : Nat
  forgive : Nat
  acquire : Option Nat
  report : Nat
  bootArmed : Nat
  deriving DecidableEq, Repr

/-- A reaction of an image. -/
structure ImageReaction where
  source : Nat
  output : Nat
  drive : Nat
  priority : Nat
  deriving DecidableEq, Repr

/-- An output's base drive and rate in an image. -/
structure ImageOutput where
  base : Nat
  rate : Nat
  deriving DecidableEq, Repr

/-- A plan image: every item of R123. -/
structure Image where
  patterns : List ImagePattern
  channels : Vector (Option ImageConfig) 8
  reactions : Vector (Option ImageReaction) 32
  outputs : Vector ImageOutput 6
  filters : Vector Nat 8
  timeout : Nat
  attention : Nat
  deriving DecidableEq, Repr

/-- The two banks (R122). -/
inductive BankId where
  | a
  | b
  deriving DecidableEq, Repr

/-- What is written in a bank: an image, its generation, and whether the check value there matches the two (R122). -/
structure BankContent where
  image : Image
  generation : Count32
  checkMatches : Bool
  deriving DecidableEq, Repr

/-- A bank: its content, absent when no complete image is there, and the validity the store keeps for it (R122). -/
structure Bank where
  content : Option BankContent
  valid : Bool
  deriving DecidableEq, Repr

/-- The store state with the operation in flight and the device time of its acceptance (R122, R126, R128). -/
inductive StoreOp where
  | idle
  | saving (target : BankId) (generation : Count32) (snapshot : Image) (since : Time)
  | erasing (remaining : Option BankId) (since : Time)
  deriving DecidableEq, Repr

/-- The Plan Store (R122). -/
structure Store where
  bankA : Bank
  bankB : Bank
  op : StoreOp
  deriving DecidableEq, Repr

/-! The Link Interface (R137, R142, R144, R147) -/

/-- The receiver's record (R137): the receive state with the length, the bytes the CRC covers, the check bytes, and the gap
expiry that every state but HUNTING holds (R140). -/
inductive Receiver where
  | hunting
  | length (gap : Time)
  | body (len : Nat) (bytes : List Byte) (gap : Time)
  | check (len : Nat) (bytes checkBytes : List Byte) (gap : Time)
  deriving DecidableEq, Repr

/-- The fifteen statuses (R153). -/
inductive Status where
  | ok
  | busy
  | unknownRequest
  | badLength
  | badValue
  | notReady
  | wrongState
  | notConfigured
  | noSuchPattern
  | inUse
  | poolFull
  | sourceTripped
  | noticePending
  | storeBusy
  | storeExhausted
  deriving DecidableEq, Repr

/-- A reply in the reply queue (R144, R173). `thenReset` marks the OK of an accepted RESET (R146). -/
structure Reply where
  tag : Byte
  status : Status
  data : List Byte
  thenReset : Bool
  deriving DecidableEq, Repr

/-- The LINK states with the silence expiry that WATCHING holds (R147). -/
inductive LinkState where
  | off
  | watching (silence : Time)
  | tripped
  deriving DecidableEq, Repr

/-- The Link Interface's records (R137, R142, R144, R147). -/
structure Link where
  receiver : Receiver
  errors : Count16
  inbox : List Frame
  busy : Count16
  replies : List Reply
  /-- When sending of the front reply began (R144). -/
  sendStart : Option Time
  source : LinkState
  /-- The link silence timeout t, in milliseconds. -/
  timeout : Nat
  deriving DecidableEq, Repr

/-- The state of the part, and the queue of waiting commands. -/
structure State where
  device : DeviceState
  cause : ResetCause
  /-- The level of the RESETn pin (R131). -/
  resetn : Level
  /-- Device time (R17). -/
  time : Time
  /-- The load has written the plan items into their blocks since the last reset (R135, R151, R169; log 12). -/
  planWritten : Bool
  patterns : Vector (Option Pattern) 16
  lines : Vector Line 8
  channels : Vector Channel 8
  reactions : Vector (Option Reaction) 32
  claims : Vector (List Claim) 6
  outputs : Vector Generator 6
  queue : Queue
  store : Store
  link : Link
  /-- The model's own field: a counter that gives each free choice a fresh argument (log 21). -/
  draws : Nat
  /-- The commands waiting, first in, first out. -/
  pending : List Instr
  deriving DecidableEq, Repr

/-! Reset values, block by block -/

/-- A Line Qualifier's record in reset (R29); `pin` is the level outside, which a reset does not change. -/
def Line.atReset (pin : Level) : Line :=
  { pin, sampled := false, filter := Config.defaultFilter, raw := .low, filtered := .low, runStart := none, runts := 0, edges := 0 }

/-- All four deviation counts 0 (R54). -/
def DeviationCounts.zero : DeviationCounts := ⟨0, 0, 0, 0⟩

/-- A channel in reset: IDLE, unconfigured, every record cleared (R54). -/
def Channel.atReset : Channel :=
  { config := none, state := .idle, strikes := 0, goodRun := 0, cycles := 0, counts := .zero, last := none,
    observed := [], closure := none }

/-- An Output Generator in reset (R103). -/
def Generator.atReset : Generator :=
  { base := .level .low, rate := 2, applied := .level .low, pending := false, frameStart := none }

/-- The Notice Queue in reset (R120): the mask is {DEVIATION, STORE}. -/
def Queue.atReset : Queue := { notices := [], nextSeq := 0, dropped := 0, mask := 0b101 }

/-- The Link Interface in reset (R151). -/
def Link.atReset : Link :=
  { receiver := .hunting, errors := 0, inbox := [], busy := 0, replies := [], sendStart := none, source := .off,
    timeout := 0 }

/-- A bank with nothing in it (log 5). -/
def Bank.empty : Bank := { content := none, valid := false }

/-- The machine right after reset: at the start of STARTING after a POWER_ON reset, device time 0 (R17, R132, log 4), both
banks empty (log 5), every input line low (log 6), no command waiting. -/
def State.reset : State :=
  { device := .starting, cause := .powerOn, resetn := .high, time := 0, planWritten := false
    patterns := Vector.replicate 16 none
    lines := Vector.replicate 8 (Line.atReset .low)
    channels := Vector.replicate 8 Channel.atReset
    reactions := Vector.replicate 32 none
    claims := Vector.replicate 6 []
    outputs := Vector.replicate 6 Generator.atReset
    queue := Queue.atReset
    store := { bankA := Bank.empty, bankB := Bank.empty, op := .idle }
    link := Link.atReset
    draws := 0
    pending := [] }

end Sys2Proof.Machine
end

