-- ==== Sys2Proof/Machine/Ops.lean ====
section
/-! DEFINITION. Named operations over the records: writing one record of a table, device-time arithmetic, counts, and the
pattern a channel reads. -/

namespace Sys2Proof.Machine

/-! Device time (R17, R18) -/

/-- A device time a number of microseconds after another; the sum wraps (R17). -/
def after (t : Time) (us : Nat) : Time := t + BitVec.ofNat 32 us

/-- A duration: the later device time minus the earlier, modulo 2^32 (R17). -/
def elapsed (later earlier : Time) : Nat := (later - earlier).toNat

/-- Device time `now` has reached `due`. Every timed wait is bounded far below the wrap (R17), so a time less than half the
wrap in the past has been reached (log 16). -/
def reached (now due : Time) : Bool := elapsed now due < 2 ^ 31

/-! Counts -/

/-- A saturating 16-bit count rises by one and stays at 65,535 (R21, R32, R63, R110, R137, R142). -/
def satSucc (c : Count16) : Count16 := if c = 65535 then c else c + 1

/-! Tables of records -/

/-- Write pattern slot `id`. -/
def State.putPattern (s : State) (id : Fin 16) (p : Option Pattern) : State :=
  { s with patterns := s.patterns.set id p }

/-- Write the record of line `l`. -/
def State.putLine (s : State) (l : Fin 8) (x : Line) : State := { s with lines := s.lines.set l x }

/-- Write the record of channel `c`. -/
def State.putChannel (s : State) (c : Fin 8) (x : Channel) : State := { s with channels := s.channels.set c x }

/-- Write reaction entry `i`. -/
def State.putReaction (s : State) (i : Fin 32) (x : Option Reaction) : State :=
  { s with reactions := s.reactions.set i x }

/-- Write the record of output `o`. -/
def State.putOutput (s : State) (o : Fin 6) (x : Generator) : State := { s with outputs := s.outputs.set o x }

/-- Apply an operation for each of the eight channels, CH0 to CH7. -/
def State.forChannels (s : State) (f : Fin 8 → State → State) : State :=
  (List.finRange 8).foldl (fun t c => f c t) s

/-! Free choices -/

/-- A free choice may have been used: the next one takes a fresh argument (log 21). -/
def State.drawn (s : State) : State := { s with draws := s.draws + 1 }

/-- A list in the order that a number names: each remainder places one element among those behind it, so that every order is
named by some number. Lists of no element and of one have one order. -/
def arrange {α : Type} (n : Nat) : List α → List α
  | [] => []
  | [x] => [x]
  | x :: y :: zs => (arrange (n / (zs.length + 2)) (y :: zs)).insertIdx (n % (zs.length + 2)) x

/-- Apply an operation for each channel of a list. With more than one channel the order is a FREE CHOICE of the model: the
rules give the channels of one line no order among them, and take their offers and trips in either (R23, R87, R113;
log 22). -/
def State.inSomeOrder (s : State) (cs : List (Fin 8)) (f : Fin 8 → State → State) : State :=
  match cs with
  | [] => s
  | [c] => f c s
  | cs => (arrange (Config.channelOrder s.draws) cs).foldl (fun t c => f c t) s.drawn

/-- The places of a list, each with whether its element stands at an earlier place too, or among those of `seen`. -/
def repeats (seen : List (Fin 8)) : List (Fin 8) → List (Fin 8 × Bool)
  | [] => []
  | c :: cs => (c, seen.contains c) :: repeats (c :: seen) cs

/-- Give each channel of a list a first turn (`false`) and a second (`true`). With more than one channel the order of the turns is
a FREE CHOICE of the model, but for each channel's own two (R26, R113; log 22). -/
def State.inTwoTurns (s : State) (cs : List (Fin 8)) (f : Fin 8 → Bool → State → State) : State :=
  match cs with
  | [] => s
  | [c] => f c true (f c false s)
  | cs => (repeats [] (arrange (Config.channelOrder s.draws) (cs ++ cs))).foldl (fun t x => f x.1 x.2 t) s.drawn

/-! Patterns and who names them (R2, R4, R5, R6) -/

/-- The number of steps in use: the sum of the step counts of the patterns present (R4). -/
def stepsIn (ps : Vector (Option Pattern) 16) : Nat :=
  (ps.toList.map fun p => match p with | some p => p.steps.length | none => 0).sum

/-- Steps in use (R4). -/
def State.stepsInUse (s : State) : Nat := stepsIn s.patterns

/-- The free-step count: 96 minus the steps in use (R4). -/
def State.freeSteps (s : State) : Nat := Config.poolSteps - s.stepsInUse

/-- Channel `c` names pattern `id`: it has a configuration with that pattern id (R5). -/
def State.namesPattern (s : State) (id : Fin 16) (c : Fin 8) : Bool :=
  match s.channels[c].config with
  | some cfg => cfg.pattern = id
  | none => false

/-- Channel `c` names line `l` as its source line (R23). -/
def State.namesLine (s : State) (l : Fin 8) (c : Fin 8) : Bool :=
  match s.channels[c].config with
  | some cfg => cfg.line = l
  | none => false

/-- The channels that name line `l` as their source line (R23). -/
def State.channelsOf (s : State) (l : Fin 8) : List (Fin 8) := (List.finRange 8).filter (s.namesLine l)

/-- The pattern that channel `c` reads from the table (R6). -/
def State.patternOf (s : State) (c : Fin 8) : Option Pattern :=
  match s.channels[c].config with
  | some cfg => s.patterns[cfg.pattern]
  | none => none

/-- The level expected in step `k`: the start level when `k` is even, its opposite when odd (R2). -/
def Pattern.levelOf (p : Pattern) (k : Nat) : Level :=
  if k % 2 = 0 then p.startLevel else match p.startLevel with | .low => .high | .high => .low

/-- A cleared observed table of `n` entries (R32). -/
def clearedTable (n : Nat) : List ObservedEntry := List.replicate n { count := 0, shortest := none, longest := none }

/-- A channel's observed table cleared and sized to `n` steps; a deadline closure is removed with it (R32, R66). -/
def Channel.clearObserved (ch : Channel) (n : Nat) : Channel :=
  { ch with observed := clearedTable n, closure := none }

/-- An observed entry with a duration `d` that ended with an accepted edge (R32). -/
def ObservedEntry.update (e : ObservedEntry) (d : Nat) : ObservedEntry :=
  { count := satSucc e.count
    shortest := if e.count = 0 then some d else some (Nat.min d (e.shortest.getD d))
    longest := if e.count = 0 then some d else some (Nat.max d (e.longest.getD d)) }

/-- Update entry `k` of a channel's observed table with `d` (R32). -/
def Channel.observe (ch : Channel) (k d : Nat) : Channel :=
  { ch with observed := ch.observed.modify k (·.update d) }

/-- Whether a channel is in IDLE, and so on: the states by name (R33). -/
def ChannelState.isIdle : ChannelState → Bool
  | .idle => true
  | _ => false

/-- In SEEKING or TRACKING: the states in which a channel supervises (R55). -/
def ChannelState.supervising : ChannelState → Bool
  | .seeking _ => true
  | .tracking _ _ _ => true
  | _ => false

/-- A source is TRIPPED when it is in the state of that name (R76). -/
def State.sourceTripped (s : State) : Source → Bool
  | .channel c => s.channels[c].state = .tripped
  | .link => s.link.source = .tripped

end Sys2Proof.Machine
end

