-- ==== Sys2Proof/Machine/Generators.lean ====
section
/-! DEFINITION. Output Generators: duty frames and their waveform, and applying a drive (R93 to R96). -/

namespace Sys2Proof.Machine

/-- The frame length at a rate, in microseconds: 4,096 steps of 62.5 ns times 2^r (R93). -/
def frameLength (rate : Fin 5) : Nat := 256 * 2 ^ rate.val

/-- The frame-end expiry, held while a frame runs (R92). -/
def Generator.frameEnd (g : Generator) : Option Time := g.frameStart.map fun t => after t (frameLength g.rate)

/-- A drive of the form DUTY. -/
def Drive.isDuty : Drive → Bool
  | .duty _ => true
  | .level _ => false

/-- Apply a drive at device time `now`: a LEVEL drive sets the line and holds no frame; a DUTY drive begins a new frame now
(R96 steps 2 to 4, R98, R99, R105). -/
def Generator.apply (g : Generator) (now : Time) (d : Drive) : Generator :=
  { g with applied := d, frameStart := if d.isDuty then some now else none }

/-- An immediate change handed over by the arbiter: a waiting base change is dropped and the drive applied (R96). -/
def Generator.immediate (g : Generator) (now : Time) (d : Drive) : Generator :=
  { g with pending := false }.apply now d

/-- The 4-bit reversal of a sub-period number (R94). -/
def rev4 (i : Nat) : Nat := i % 2 * 8 + i / 2 % 2 * 4 + i / 4 % 2 * 2 + i / 8 % 2

/-- The high count of sub-period `i` of DUTY d (R94). -/
def highCount (d : BitVec 12) (i : Nat) : Nat :=
  if rev4 i < d.toNat % 16 then d.toNat / 16 + 1 else d.toNat / 16

/-- The line is high in step `n` (0 to 4,095) of a frame of DUTY d (R94). -/
def highInStep (d : BitVec 12) (n : Nat) : Bool := n % 256 < highCount d (n / 256)

/-- The level of output line `o` in the `x`-th sixteenth (62.5 ns) of the present microsecond: low in RESET and STARTING
(R104), else by the applied drive (R94, R102). -/
def State.outLevel (s : State) (o : Fin 6) (x : Nat) : Level :=
  match s.device, s.outputs[o].applied, s.outputs[o].frameStart with
  | .running, .level l, _ => l
  | .running, .duty d, some start =>
    if highInStep d ((elapsed s.time start * 16 + x) / 2 ^ s.outputs[o].rate.val % 4096) then .high else .low
  | _, _, _ => .low

end Sys2Proof.Machine
end

