-- ==== Sys2Proof/Machine/Arbiter.lean ====
section
/-! DEFINITION. The Output Arbiter: claims made at a trip and removed at a release, the winning claim, the effective drive
and the immediate changes it hands over (R80 to R86). -/

namespace Sys2Proof.Machine

/-- The winning claim: the highest priority, and the oldest among equals (R84). -/
def winner : List Claim → Option Claim
  | [] => none
  | c :: cs =>
    match winner cs with
    | some w => if c.priority < w.priority then some w else some c
    | none => some c

/-- The effective drive of output `o`: the winning claim's, or the base drive when the list is empty (R84). -/
def State.effective (s : State) (o : Fin 6) : Drive :=
  match winner s.claims[o] with
  | some c => c.drive
  | none => s.outputs[o].base

/-- The immediate change, if any, for an output whose list changed from `old` to `new` (R85). A list that did not change
hands nothing. -/
def handOver (base : Drive) (old new : List Claim) : Option Drive :=
  match winner old, winner new with
  | none, none => none
  | none, some w => some w.drive
  | some _, none => some base
  | some v, some w => if v.drive = w.drive then none else some w.drive

/-- Put the six claim lists of one trip or release in force, and hand each output its immediate change (R85). -/
def State.setClaims (s : State) (new : Vector (List Claim) 6) : State :=
  { s with
    claims := new
    outputs := Vector.ofFn fun o : Fin 6 =>
      match handOver s.outputs[o].base s.claims[o] new[o] with
      | some d => s.outputs[o].immediate s.time d
      | none => s.outputs[o] }

/-- Reaction entry `i` as a claim of source `src` on output `o`, if it is one (R80, R82). -/
def State.claimFrom (s : State) (src : Source) (o : Fin 6) (i : Fin 32) : Option Claim :=
  match s.reactions[i] with
  | some r =>
    if r.source = src ∧ r.output = o then
      some { index := i, source := r.source, priority := r.priority, drive := r.drive }
    else none
  | none => none

/-- The claims a trip of `src` places on output `o`, in ascending index order (R82). -/
def State.newClaims (s : State) (src : Source) (o : Fin 6) : List Claim :=
  (List.finRange 32).filterMap (s.claimFrom src o)

/-- The number of non-empty reaction entries naming `src` (R82). -/
def State.reactionCount (s : State) (src : Source) : Nat :=
  s.reactions.toList.countP fun r => match r with | some r => r.source = src | none => false

/-- A source hands over its trip: its reactions append their claims (R82). -/
def State.makeClaims (s : State) (src : Source) : State :=
  s.setClaims (Vector.ofFn fun o : Fin 6 => s.claims[o] ++ s.newClaims src o)

/-- The number of claims `src` holds in all six lists. -/
def State.claimCount (s : State) (src : Source) : Nat :=
  (s.claims.toList.map fun l => l.countP fun c => c.source = src).sum

/-- A source hands over its release: every claim of it is removed, the others keep their order (R83). -/
def State.releaseClaims (s : State) (src : Source) : State :=
  s.setClaims (Vector.ofFn fun o : Fin 6 => s.claims[o].filter fun c => c.source ≠ src)

end Sys2Proof.Machine
end

