-- ==== Sys2Proof/Machine/Operands.lean ====
section
/-! DEFINITION. The forms in which fields are written on the link (R170, R171): reading request parameters, writing reply
data and notice records. -/

namespace Sys2Proof.Machine

/-! Reading -/

/-- Two bytes, most significant first. -/
def nat16 (a b : Byte) : Nat := a.toNat * 256 + b.toNat

/-- Three bytes, most significant first. -/
def nat24 (a b c : Byte) : Nat := a.toNat * 65536 + b.toNat * 256 + c.toNat

/-- A number below `n` (channel, line, output, id, index, rate, priority). -/
def finOf (n : Nat) (b : Byte) : Option (Fin n) := if h : b.toNat < n then some ⟨b.toNat, h⟩ else none

/-- A yes or no field: 00H no, 01H yes. -/
def boolOf (b : Byte) : Option Bool := if b = 0 then some false else if b = 1 then some true else none

/-- A level: 00H LOW, 01H HIGH. -/
def levelOf (b : Byte) : Option Level := if b = 0 then some .low else if b = 1 then some .high else none

/-- The source a number names: 0 to 7 a channel, 8 LINK. -/
def sourceOfNat (n : Nat) : Option Source :=
  if h : n < 8 then some (.channel ⟨n, h⟩) else if n = 8 then some .link else none

/-- A source byte; DEVICE is out of range in a request (R172). -/
def sourceOf (b : Byte) : Option Source := sourceOfNat b.toNat

/-- The drive a code names: 0000H to 0FFFH DUTY, 1000H LEVEL LOW, 1001H LEVEL HIGH. -/
def driveOfNat (n : Nat) : Option Drive :=
  if n < 4096 then some (.duty (BitVec.ofNat 12 n))
  else if n = 4096 then some (.level .low)
  else if n = 4097 then some (.level .high)
  else none

/-- A drive field. -/
def driveOf (a b : Byte) : Option Drive := driveOfNat (nat16 a b)

/-- A mask byte of `n` members: no bit beyond them. -/
def maskOf (n : Nat) (b : Byte) : Option (BitVec n) :=
  if b.toNat < 2 ^ n then some (BitVec.ofNat n b.toNat) else none

/-- An acquire limit: presence byte, then three value bytes that are examined only when present (R170, R159). The outer
option is the range check, the inner one the presence. -/
def acquireOf (p a b c : Byte) : Option (Option Nat) :=
  if p = 0 then some none
  else if p = 1 then if 0 < nat24 a b c then some (some (nat24 a b c)) else none
  else none

/-- The step records behind DEFINE_PATTERN's fixed part, 7 bytes each, with the value checks of R7. -/
def stepsOf : List Byte → Option (List PatternStep)
  | [] => some []
  | a :: b :: c :: d :: e :: f :: m :: rest =>
    match boolOf m, stepsOf rest with
    | some mark, some steps =>
      if nat24 a b c ≤ Config.maxStepMin ∧ nat24 a b c < nat24 d e f ∧ nat24 d e f ≤ Config.maxStepMax then
        some ({ min := nat24 a b c, max := nat24 d e f, mark := mark } :: steps)
      else none
    | _, _ => none
  | _ => none

/-- The ten configuration bytes of CONFIGURE_CHANNEL (R171), with the ranges of R30. -/
def configOf (line pat limit forgive pres a b c mask boot : Byte) : Option ChannelConfig :=
  match finOf 8 line, finOf 16 pat, acquireOf pres a b c, maskOf 5 mask, boolOf boot with
  | some line, some pattern, some acquire, some report, some bootArmed =>
    if 1 ≤ limit.toNat ∧ limit.toNat ≤ 15 then
      some { line, pattern, strikeLimit := limit.toNat, forgive := forgive.toNat, acquire, report, bootArmed }
    else none
  | _, _, _, _, _ => none

/-! Writing -/

/-- A one-byte number. -/
def byte (n : Nat) : Byte := BitVec.ofNat 8 n

/-- A two-byte number, most significant byte first. -/
def be16 (n : Nat) : List Byte := [byte (n / 256), byte n]

/-- A four-byte number, most significant byte first. -/
def be32 (n : Nat) : List Byte := [byte (n / 16777216), byte (n / 65536), byte (n / 256), byte n]

/-- A three-byte step duration (R170). A duration that does not fit has three bytes the rules do not state (log 18). -/
def be24 (n : Nat) : List Byte :=
  let v := if n < 16777216 then n else (Config.oversizeDuration n).toNat
  [byte (v / 65536), byte (v / 256), byte v]

/-- A device time, or any 32-bit count. -/
def time32 (t : BitVec 32) : List Byte := be32 t.toNat

/-- A 16-bit count. -/
def count16 (c : Count16) : List Byte := be16 c.toNat

/-- Yes or no. -/
def yesNo (b : Bool) : Byte := if b then 1 else 0

/-- A level. -/
def levelByte (l : Level) : Byte := match l with | .low => 0 | .high => 1

/-- The code of a drive (R170). -/
def Drive.code : Drive → Nat
  | .duty d => d.toNat
  | .level .low => 4096
  | .level .high => 4097

/-- A drive field. -/
def Drive.bytes (d : Drive) : List Byte := be16 d.code

/-- The number of a source: 0 to 7 a channel, 8 LINK. -/
def Source.code : Source → Nat
  | .channel c => c.val
  | .link => 8

/-- A source byte. -/
def Source.toByte (s : Source) : Byte := byte s.code

/-- A notice's source byte: DEVICE is 09H. -/
def NoticeSource.toByte : NoticeSource → Byte
  | .trip s => s.toByte
  | .device => 9

/-- A set of channels, one bit each (R170). -/
def channelSet (f : Fin 8 → Bool) : Byte :=
  byte ((List.finRange 8).foldl (fun n c => if f c then n + 2 ^ c.val else n) 0)

/-- An optional field: a presence byte, then the value bytes, all 00H when absent (R170). -/
def optional (v : Option (List Byte)) (width : Nat) : List Byte :=
  match v with
  | some bs => 1 :: bs
  | none => 0 :: List.replicate width 0

/-- The status bytes (R170). -/
def Status.toByte : Status → Byte
  | .ok => 0x00
  | .busy => 0x01
  | .unknownRequest => 0x02
  | .badLength => 0x03
  | .badValue => 0x04
  | .notReady => 0x05
  | .wrongState => 0x06
  | .notConfigured => 0x07
  | .noSuchPattern => 0x08
  | .inUse => 0x09
  | .poolFull => 0x0A
  | .sourceTripped => 0x0B
  | .noticePending => 0x0C
  | .storeBusy => 0x0D
  | .storeExhausted => 0x0E

/-- The channel state byte (R170). -/
def ChannelState.toByte : ChannelState → Byte
  | .idle => 0
  | .seeking _ => 1
  | .tracking _ _ _ => 2
  | .paused => 3
  | .tripped => 4

/-- The LINK state byte (R170). -/
def LinkState.toByte : LinkState → Byte
  | .off => 0
  | .watching _ => 1
  | .tripped => 2

/-- The device state byte; RESET is never reported (R132, R170). -/
def DeviceState.toByte : DeviceState → Byte
  | .reset => 0
  | .starting => 1
  | .running => 2

/-- The store state byte (R170). -/
def StoreOp.toByte : StoreOp → Byte
  | .idle => 0
  | .saving _ _ _ _ => 1
  | .erasing _ _ => 2

/-- The bank byte (R170). -/
def BankId.toByte : BankId → Byte
  | .a => 0
  | .b => 1

/-- The deviation kind byte (R170). -/
def DeviationKind.toByte : DeviationKind → Byte
  | .early => 1
  | .late => 2
  | .noSignal => 3
  | .injected => 4

/-- The reset cause byte (R170). -/
def ResetCause.toByte : ResetCause → Byte
  | .powerOn => 1
  | .resetLine => 2
  | .resetRequest => 3

/-- The plan outcome byte (R170). -/
def PlanOutcome.toByte : PlanOutcome → Byte
  | .none => 0
  | .bankA => 1
  | .bankB => 2
  | .rejected => 3

/-- A step record, 7 bytes (R171). -/
def PatternStep.bytes (p : PatternStep) : List Byte := be24 p.min ++ be24 p.max ++ [yesNo p.mark]

/-- A configuration, 10 bytes (R171). -/
def ChannelConfig.bytes (c : ChannelConfig) : List Byte :=
  [byte c.line, byte c.pattern, byte c.strikeLimit, byte c.forgive] ++ optional (c.acquire.map be24) 3 ++
    [byte c.report.toNat, yesNo c.bootArmed]

/-- A last-deviation record, 12 bytes with its presence byte (R171). -/
def deviationBytes (d : Option Deviation) : List Byte :=
  optional (d.map fun d =>
    [d.kind.toByte] ++ optional (d.step.map fun k => [byte k]) 1 ++ optional (d.measured.map be24) 3 ++ time32 d.time) 11

/-- A claim, 5 bytes (R171). -/
def Claim.bytes (c : Claim) : List Byte := [byte c.index, c.source.toByte, byte c.priority] ++ c.drive.bytes

/-- An observed entry, 8 bytes; shortest and longest are 000000H while the count is 0 (R170, R171). -/
def ObservedEntry.bytes (e : ObservedEntry) : List Byte :=
  count16 e.count ++ be24 (e.shortest.getD 0) ++ be24 (e.longest.getD 0)

/-- The notice kind byte (R170). -/
def NoticeBody.kindByte : NoticeBody → Byte
  | .deviation _ _ _ _ => 1
  | .tripChannel _ _ _ _ _ => 2
  | .tripLink _ _ => 2
  | .mark _ _ _ => 3
  | .started _ _ _ _ => 4
  | .store _ _ _ => 5

/-- The ten detail bytes of a notice record, unused bytes 00H (R174). -/
def NoticeBody.bytes : NoticeBody → List Byte
  | .deviation kind step measured strikes =>
    [kind.toByte] ++ optional (step.map fun k => [byte k]) 1 ++ optional (measured.map be24) 3 ++ [byte strikes, 0, 0]
  | .tripChannel kind step measured strikes claims =>
    [kind.toByte] ++ optional (step.map fun k => [byte k]) 1 ++ optional (measured.map be24) 3 ++
      [byte strikes, byte claims, 0]
  | .tripLink limit claims => be16 limit ++ [byte claims, 0, 0, 0, 0, 0, 0, 0]
  | .mark step measured cycles => [byte step] ++ be24 measured ++ time32 cycles ++ [0, 0]
  | .started cause outcome generation bootArmed =>
    [cause.toByte, outcome.toByte] ++ optional (generation.map time32) 4 ++ [byte bootArmed, 0, 0]
  | .store operation done generation =>
    [match operation with | .save => 1 | .erase => 2, if done then 0 else 1] ++ optional (generation.map time32) 4 ++
      [0, 0, 0]

/-- A notice record, 18 bytes (R174). -/
def Notice.bytes (n : Notice) : List Byte :=
  count16 n.sequence ++ time32 n.time ++ [n.source.toByte, n.body.kindByte] ++ n.body.bytes

end Sys2Proof.Machine
end

