-- ==== Sys2Proof/Machine/Flags.lean ====
section
/-! DEFINITION. What the part computes from its records: kinds in a mask, the notice counts, pending TRIP notices, ATTN. -/

namespace Sys2Proof.Machine

/-- A deviation kind is in a report mask (R30; weights of R170). -/
def reports (mask : BitVec 5) : DeviationKind → Bool
  | .early => mask.getLsbD 0
  | .late => mask.getLsbD 1
  | .noSignal => mask.getLsbD 2
  | .injected => mask.getLsbD 3

/-- MARK is in a report mask. -/
def reportsMark (mask : BitVec 5) : Bool := mask.getLsbD 4

/-- A notice of kind TRIP, from a channel or LINK (R107). -/
def Notice.isTrip (n : Notice) : Bool :=
  match n.body with
  | .tripChannel _ _ _ _ _ => true
  | .tripLink _ _ => true
  | _ => false

/-- The non-TRIP count (R106). -/
def nonTripCount (ns : List Notice) : Nat := ns.countP (fun n => !n.isTrip)

/-- A source has a pending TRIP notice: a notice of kind TRIP from it is in the list (R111). -/
def Queue.tripPending (q : Queue) (src : Source) : Bool :=
  q.notices.any fun n => n.isTrip && n.source = .trip src

/-- A waiting notice asserts ATTN under a mask: TRIP and STARTED always, the other kinds when in the mask (R119). -/
def Notice.asserts (mask : BitVec 3) (n : Notice) : Bool :=
  match n.body with
  | .deviation _ _ _ _ => mask.getLsbD 0
  | .tripChannel _ _ _ _ _ => true
  | .tripLink _ _ => true
  | .mark _ _ _ => mask.getLsbD 1
  | .started _ _ _ _ => true
  | .store _ _ _ => mask.getLsbD 2

/-- The ATTN line is asserted: in RUNNING, while the list holds a notice that qualifies (R119). -/
def State.attn (s : State) : Bool :=
  s.device = .running && s.queue.notices.any (·.asserts s.queue.mask)

/-- The count of a deviation's kind rises by one (R61 stage 2). -/
def DeviationCounts.bump (n : DeviationCounts) : DeviationKind → DeviationCounts
  | .early => { n with early := satSucc n.early }
  | .late => { n with late := satSucc n.late }
  | .noSignal => { n with noSignal := satSucc n.noSignal }
  | .injected => { n with injected := satSucc n.injected }

end Sys2Proof.Machine
end

