-- ==== Sys2Proof/Machine/Notices.lean ====
section
/-! DEFINITION. Offering a notice to the Notice Queue: admission, sequence numbers, dropping (R109, R110). -/

namespace Sys2Proof.Machine

/-- An offered notice is admitted: a TRIP always, any other while fewer than 39 non-TRIP notices wait. It takes the next
sequence number, and otherwise it is dropped and counted (R109, R110). -/
def Queue.offer (q : Queue) (time : Time) (source : NoticeSource) (body : NoticeBody) : Queue :=
  let n : Notice := { sequence := q.nextSeq, time, source, body }
  if n.isTrip || nonTripCount q.notices < Config.nonTripPlaces then
    { q with notices := q.notices ++ [n], nextSeq := q.nextSeq + 1 }
  else { q with dropped := satSucc q.dropped }

/-- A block offers a notice (R109). -/
def State.offer (s : State) (time : Time) (source : NoticeSource) (body : NoticeBody) : State :=
  { s with queue := s.queue.offer time source body }

end Sys2Proof.Machine
end

