-- ==== Sys2Proof/Machine/Store.lean ====
section
/-! DEFINITION. The Plan Store: banks and generations, the plan image of the live plan, its checks and its loading, and the
events of a save and an erase in flight (R122 to R130, R133 to R135). -/

namespace Sys2Proof.Machine

/-! Banks (R122, R124) -/

/-- What a valid bank holds; an invalid bank's content is not read (R122). -/
def Bank.saved (b : Bank) : Option BankContent := if b.valid then b.content else none

/-- A bank's generation, when it is valid. -/
def Bank.generation (b : Bank) : Option Count32 := b.saved.map (·.generation)

/-- The bank of an id. -/
def Store.bank (st : Store) : BankId → Bank
  | .a => st.bankA
  | .b => st.bankB

/-- Write the bank of an id. -/
def Store.putBank (st : Store) (i : BankId) (b : Bank) : Store :=
  match i with
  | .a => { st with bankA := b }
  | .b => { st with bankB := b }

/-- Indivisible invalidation: the bank's earlier image cannot be loaded again (R125, R127). -/
def Store.invalidate (st : Store) (i : BankId) : Store := st.putBank i Bank.empty

/-- The newest bank: the valid bank of the larger generation; bank A of two equal ones (R124). -/
def Store.newest (st : Store) : Option BankId :=
  match st.bankA.generation, st.bankB.generation with
  | none, none => none
  | some _, none => some .a
  | none, some _ => some .b
  | some ga, some gb => if ga.toNat < gb.toNat then some .b else some .a

/-- The newest valid generation, absent when no bank is valid (R124). -/
def Store.newestGeneration (st : Store) : Option Count32 :=
  match st.newest with
  | some i => (st.bank i).generation
  | none => none

/-- The other bank: not the newest one; A when neither is valid (R124). -/
def Store.other (st : Store) : BankId :=
  match st.newest with
  | some .a => .b
  | some .b => .a
  | none => .a

/-- The newest bank, B when neither is valid: the second bank of an erase (R127). -/
def Store.second (st : Store) : BankId :=
  match st.newest with
  | some i => i
  | none => .b

/-- The store decides a bank's validity from its check value at the start of STARTING (R122, R132). -/
def Bank.decide (b : Bank) : Bank :=
  { b with valid := match b.content with | some c => c.checkMatches | none => false }

/-! The live plan as an image (R123) -/

/-- A pattern as an image holds it. -/
def Pattern.toImage (id : Nat) (p : Pattern) : ImagePattern :=
  { id, startLevel := (levelByte p.startLevel).toNat
    steps := p.steps.map fun st => { min := st.min, max := st.max, mark := if st.mark then 1 else 0 } }

/-- A configuration as an image holds it. -/
def ChannelConfig.toImage (c : ChannelConfig) : ImageConfig :=
  { line := c.line, pattern := c.pattern, strikeLimit := c.strikeLimit, forgive := c.forgive, acquire := c.acquire
    report := c.report.toNat, bootArmed := if c.bootArmed then 1 else 0 }

/-- A reaction as an image holds it. -/
def Reaction.toImage (r : Reaction) : ImageReaction :=
  { source := r.source.code, output := r.output, drive := r.drive.code, priority := r.priority }

/-- The snapshot of the live plan that SAVE_PLAN takes (R123, R125). -/
def State.snapshot (s : State) : Image :=
  { patterns := (List.finRange 16).filterMap fun id => s.patterns[id].map (Pattern.toImage id)
    channels := Vector.ofFn fun c : Fin 8 => s.channels[c].config.map ChannelConfig.toImage
    reactions := Vector.ofFn fun i : Fin 32 => s.reactions[i].map Reaction.toImage
    outputs := Vector.ofFn fun o : Fin 6 => { base := s.outputs[o].base.code, rate := s.outputs[o].rate }
    filters := Vector.ofFn fun l : Fin 8 => s.lines[l].filter
    timeout := s.link.timeout
    attention := s.queue.mask.toNat }

/-- The defaults, used when no image is loaded (R135). -/
def Image.defaults : Image :=
  { patterns := [], channels := Vector.replicate 8 none, reactions := Vector.replicate 32 none
    outputs := Vector.replicate 6 { base := 4096, rate := 2 }
    filters := Vector.replicate 8 Config.defaultFilter, timeout := 0, attention := 0b101 }

/-! The checks of R134 -/

/-- A step of an image is in range (R16). -/
def ImageStep.accepted (st : ImageStep) : Bool :=
  st.min ≤ Config.maxStepMin && st.min < st.max && st.max ≤ Config.maxStepMax && st.mark ≤ 1

/-- A pattern of an image is in range (R16). -/
def ImagePattern.accepted (p : ImagePattern) : Bool :=
  p.id ≤ 15 && p.startLevel ≤ 1 && p.steps.length % 2 = 0 && 2 ≤ p.steps.length && p.steps.length ≤ 16 &&
    p.steps.all (·.accepted)

/-- A configuration of an image is in range and names a pattern the image holds (R134). -/
def ImageConfig.accepted (ids : List Nat) (c : ImageConfig) : Bool :=
  c.line ≤ 7 && ids.contains c.pattern && 1 ≤ c.strikeLimit && c.strikeLimit ≤ 15 && c.forgive ≤ 255 &&
    (match c.acquire with | none => true | some n => 1 ≤ n && n ≤ 16777215) && c.report < 32 && c.bootArmed ≤ 1

/-- A reaction of an image is in range (R91). -/
def ImageReaction.accepted (r : ImageReaction) : Bool :=
  (sourceOfNat r.source).isSome && r.output ≤ 5 && (driveOfNat r.drive).isSome && r.priority ≤ 7

/-- An output's base and rate in an image are in range (R104). -/
def ImageOutput.accepted (o : ImageOutput) : Bool := (driveOfNat o.base).isSome && o.rate ≤ 4

/-- The selected image is accepted only if every check holds (R134). -/
def Image.accepted (img : Image) : Bool :=
  img.patterns.all (·.accepted) && decide (img.patterns.map (·.id)).Nodup &&
    (img.patterns.map (·.steps.length)).sum ≤ Config.poolSteps &&
    img.channels.toList.all (fun c => match c with
      | some c => c.accepted (img.patterns.map (·.id))
      | none => true) &&
    img.reactions.toList.all (fun r => match r with | some r => r.accepted | none => true) &&
    img.outputs.toList.all (·.accepted) && img.filters.toList.all (· ≤ Config.maxFilter) &&
    (img.timeout = 0 || 10 ≤ img.timeout && img.timeout ≤ 60000) && img.attention < 8

/-! Loading (R135) -/

/-- A pattern of an accepted image as the table holds it. -/
def ImagePattern.toPattern (p : ImagePattern) : Pattern :=
  { startLevel := if p.startLevel = 0 then .low else .high
    steps := p.steps.map fun st => { min := st.min, max := st.max, mark := st.mark = 1 } }

/-- A configuration of an accepted image as the channel holds it. -/
def ImageConfig.toConfig (c : ImageConfig) : Option ChannelConfig :=
  if h : c.line < 8 ∧ c.pattern < 16 then
    some { line := ⟨c.line, h.1⟩, pattern := ⟨c.pattern, h.2⟩, strikeLimit := c.strikeLimit, forgive := c.forgive
           acquire := c.acquire, report := BitVec.ofNat 5 c.report, bootArmed := c.bootArmed = 1 }
  else none

/-- A reaction of an accepted image as the table holds it. -/
def ImageReaction.toReaction (r : ImageReaction) : Option Reaction :=
  match sourceOfNat r.source, driveOfNat r.drive with
  | some source, some drive =>
    if h : r.output < 6 ∧ r.priority < 8 then
      some { source, output := ⟨r.output, h.1⟩, drive, priority := ⟨r.priority, h.2⟩ }
    else none
  | _, _ => none

/-- The pattern table of an accepted image: each pattern under its id (R16). -/
def Image.table (img : Image) : Vector (Option Pattern) 16 :=
  Vector.ofFn fun id : Fin 16 => (img.patterns.find? fun p => p.id = id.val).map ImagePattern.toPattern

/-- A channel with a loaded configuration and a cleared observed table sized to its pattern (R54, R135). -/
def Channel.load (ch : Channel) (table : Vector (Option Pattern) 16) (cfg : Option ChannelConfig) : Channel :=
  { ch with
    config := cfg
    closure := none
    observed := match cfg with
      | some c => match table[c.pattern] with
        | some p => clearedTable p.steps.length
        | none => []
      | none => [] }

/-- Every item of R123 is set from the image (R135). -/
def State.loadPlan (s : State) (img : Image) : State :=
  { s with
    planWritten := true
    patterns := img.table
    channels := Vector.ofFn fun c : Fin 8 => s.channels[c].load img.table (img.channels[c].bind ImageConfig.toConfig)
    reactions := Vector.ofFn fun i : Fin 32 => img.reactions[i].bind ImageReaction.toReaction
    outputs := Vector.ofFn fun o : Fin 6 =>
      { s.outputs[o] with
        base := (driveOfNat img.outputs[o].base).getD (.level .low)
        rate := if h : img.outputs[o].rate < 5 then ⟨img.outputs[o].rate, h⟩ else 2 }
    lines := Vector.ofFn fun l : Fin 8 => { s.lines[l] with filter := img.filters[l] }
    link := { s.link with timeout := img.timeout }
    queue := { s.queue with mask := BitVec.ofNat 3 img.attention } }

/-- The selection of a bank and the checks of its image: the plan to load, the outcome and the generation (R133 to R135). -/
def Store.selectPlan (st : Store) : Image × PlanOutcome × Option Count32 :=
  match st.newest with
  | none => (Image.defaults, .none, none)
  | some i =>
    match (st.bank i).saved with
    | none => (Image.defaults, .none, none)
    | some c =>
      if c.image.accepted then
        (c.image, match i with | .a => .bankA | .b => .bankB, some c.generation)
      else (Image.defaults, .rejected, none)

/-! Operations in flight (R126, R128) -/

/-- SAVE_COMPLETION: at a device time after the acceptance, the target becomes valid with the snapshot, or stays invalid on a
mismatch; the store is IDLE, and then the STORE notice is offered (R126). Without a save in flight, or at the device time of
its acceptance, there is no completion (log 2, log 9). -/
def execSaveCompletion (readBackMatches : Bool) (s : State) : Host.Outcome State Fault Refusal :=
  .next <|
    match s.store.op with
    | .saving target generation snapshot since =>
      if s.time = since then s
      else
        let bank : Bank :=
          if readBackMatches then { content := some { image := snapshot, generation, checkMatches := true }, valid := true }
          else Bank.empty
        let s1 := { s with store := { s.store.putBank target bank with op := .idle } }
        s1.offer s.time .device (.store .save readBackMatches (if readBackMatches then some generation else none))
    | _ => s

/-- SECOND_BANK_INVALIDATION: at a device time after the acceptance of an erase, its second bank becomes invalid (R128). -/
def execSecondBankInvalidation (s : State) : Host.Outcome State Fault Refusal :=
  .next <|
    match s.store.op with
    | .erasing (some i) since =>
      if s.time = since then s
      else { s with store := { s.store.invalidate i with op := .erasing none since } }
    | _ => s

/-- ERASE_COMPLETION: both banks are invalid, the store is IDLE, and the STORE notice is offered (R128). The second
invalidation falls no later than the completion, so a completion taken first carries it out. -/
def execEraseCompletion (s : State) : Host.Outcome State Fault Refusal :=
  .next <|
    match s.store.op with
    | .erasing _ since =>
      if s.time = since then s
      else
        let s1 := { s with store := { bankA := Bank.empty, bankB := Bank.empty, op := .idle } }
        s1.offer s.time .device (.store .erase true none)
    | _ => s

end Sys2Proof.Machine
end

