-- ==== Sys2Proof/Machine/Supervision.lean ====
section
/-! DEFINITION. The Channel Engine: entering SEEKING, following accepted edges through the steps, deviations, strikes and
trips (R36, R37, R42 to R49, R55 to R68). -/

namespace Sys2Proof.Machine

/-- A channel enters SEEKING now; its acquire expiry is placed when an acquire limit is present (R37). -/
def State.seek (s : State) (c : Fin 8) : State :=
  let ch := s.channels[c]
  let limit := match ch.config with | some cfg => cfg.acquire | none => none
  s.putChannel c { ch with state := .seeking (limit.map (after s.time)) }

/-- ARM's effect on channel `c`, also used at boot-arming: every runtime record cleared, then SEEKING (R36, R54). -/
def State.armChannel (s : State) (c : Fin 8) : State :=
  let n := match s.patternOf c with | some p => p.steps.length | none => 0
  let ch := { s.channels[c] with strikes := 0, goodRun := 0, cycles := 0, counts := DeviationCounts.zero, last := none }
  (s.putChannel c (ch.clearObserved n)).seek c

/-- A channel trips: TRIPPED, then the claims, then the TRIP notice with their number (R67, R68). -/
def State.tripChannel (s : State) (c : Fin 8) (dev : Deviation) : State :=
  let ch := s.channels[c]
  let t := (s.putChannel c { ch with state := .tripped }).makeClaims (.channel c)
  t.offer dev.time (.trip (.channel c))
    (.tripChannel dev.kind dev.step dev.measured ch.strikes (s.reactionCount (.channel c)))

/-- Stages 1 to 4 of deviation handling: strike, record, trip test, report and resync (R61, R64). -/
def State.handleDeviation (s : State) (c : Fin 8) (dev : Deviation) : State :=
  match s.channels[c].config with
  | none => s
  | some cfg =>
    let ch := s.channels[c]
    let struck := { ch with
      strikes := ch.strikes + 1, goodRun := 0, counts := ch.counts.bump dev.kind, last := some dev }
    let s1 := s.putChannel c struck
    if struck.strikes = cfg.strikeLimit then s1.tripChannel c dev
    else
      let s2 :=
        if reports cfg.report dev.kind then
          s1.offer dev.time (.trip (.channel c)) (.deviation dev.kind dev.step dev.measured struck.strikes)
        else s1
      s2.seek c

/-- The step deadline of step `k`, begun at `start`, is delivered to channel `c` in TRACKING: a deadline closure is held
and the LATE deviation is handled (R49, R59, R66). -/
def State.lateByDeadline (s : State) (c : Fin 8) (k : Nat) (start : Time) (max : Nat) : State :=
  let closing := after start max
  (s.putChannel c { s.channels[c] with closure := some { step := k, closing } }).handleDeviation c
    { kind := .late, step := some k, measured := some max, time := closing }

/-- The step deadline that channel `c` holds in TRACKING is delivered when device time has reached it (R18, R49). -/
def State.deliverDeadline (s : State) (c : Fin 8) : State :=
  match s.channels[c].state, s.patternOf c with
  | .tracking k start deadline, some p =>
    match p.steps[k]? with
    | some st => if reached s.time deadline then s.lateByDeadline c k start st.max else s
    | none => s
  | _, _ => s

/-- The filter time of channel `c`'s source line (R43). -/
def State.filterOf (s : State) (c : Fin 8) : Nat :=
  match s.channels[c].config with
  | some cfg => s.lines[cfg.line].filter
  | none => 0

/-- Channel `c` enters step `k` of its pattern at `t`: the deadline is placed at t + max + F (R43). -/
def State.enterStep (s : State) (c : Fin 8) (k : Nat) (t : Time) : State :=
  match s.patternOf c with
  | none => s
  | some p =>
    match p.steps[k]? with
    | none => s
    | some st => s.putChannel c { s.channels[c] with state := .tracking k t (after t (st.max + s.filterOf c)) }

/-- An accepted edge reaches channel `c` in SEEKING: into the start level it is a sync edge, else it is ignored (R42). -/
def State.syncEdge (s : State) (c : Fin 8) (level : Level) (t : Time) : State :=
  match s.patternOf c with
  | none => s
  | some p => if level = p.startLevel then s.enterStep c 0 t else s

/-- A deviation formed by an edge: it is handled, and when the channel is back in SEEKING the edge is offered to it
(R61 stage 5, R65). -/
def State.handleByEdge (s : State) (c : Fin 8) (dev : Deviation) (level : Level) (t : Time) : State :=
  let s1 := s.handleDeviation c dev
  match s1.channels[c].state with
  | .seeking _ => s1.syncEdge c level t
  | _ => s1

/-- A completed cycle: cycles completed, the good run, forgiveness (R46, R47). -/
def Channel.completeCycle (ch : Channel) (forgive : Nat) : Channel :=
  let ch := { ch with cycles := ch.cycles + 1 }
  if forgive = 0 then ch
  else if ch.goodRun + 1 = forgive then { ch with goodRun := 0, strikes := ch.strikes - 1 }
  else { ch with goodRun := ch.goodRun + 1 }

/-- Step `k` passes on an edge stamped `t` with duration `d`: MARK notice, advance with cycle completion at the wrap, and the
next step (R45, R48). The observed entry has been updated before. -/
def State.passStep (s : State) (c : Fin 8) (cfg : ChannelConfig) (p : Pattern) (st : PatternStep) (k d : Nat)
    (t : Time) : State :=
  let s1 :=
    if st.mark && reportsMark cfg.report then
      s.offer t (.trip (.channel c)) (.mark k d s.channels[c].cycles)
    else s
  if k + 1 = p.steps.length then
    (s1.putChannel c (s1.channels[c].completeCycle cfg.forgive)).enterStep c 0 t
  else s1.enterStep c (k + 1) t

/-- An accepted edge reaches channel `c` in TRACKING at step `k`: the observed entry is updated with its duration, then the
duration is compared with the window (R44, R57, R58). -/
def State.trackEdge (s : State) (c : Fin 8) (cfg : ChannelConfig) (k : Nat) (start : Time) (level : Level)
    (t : Time) : State :=
  match s.patterns[cfg.pattern] with
  | none => s
  | some p =>
    match p.steps[k]? with
    | none => s
    | some st =>
      let d := elapsed t start
      let s1 := s.putChannel c (s.channels[c].observe k d)
      if d < st.min then
        s1.handleByEdge c { kind := .early, step := some k, measured := some d, time := t } level t
      else if d < st.max then s1.passStep c cfg p st k d t
      else s1.handleByEdge c { kind := .late, step := some k, measured := some st.max, time := t } level t

/-- An edge stamped at the closing time of a held deadline closure is recorded in the observed table, in whatever state the
channel is, and the closure removed (R66). -/
def State.closeByEdge (s : State) (c : Fin 8) (t : Time) : State :=
  match s.channels[c].closure, s.patternOf c with
  | some cl, some p =>
    if cl.closing = t then
      match p.steps[cl.step]? with
      | some st => s.putChannel c { s.channels[c].observe cl.step st.max with closure := none }
      | none => s
    else s
  | _, _ => s

/-- The turn of channel `c` with an accepted edge of its source line: it acts on the edge from its own state, and places the
deadline of the step that the edge begins (R23, R33, R43). -/
def State.edgeTurn (s : State) (c : Fin 8) (level : Level) (t : Time) : State :=
  let s := s.closeByEdge c t
  match s.channels[c].config, s.channels[c].state with
  | some _, .seeking _ => s.syncEdge c level t
  | some cfg, .tracking k start _ => s.trackEdge c cfg k start level t
  | _, _ => s

/-- An accepted edge of its source line is delivered to channel `c`; a deadline that was already reached when the edge placed it
is delivered at once (R43, R18, log 17). -/
def State.edgeToChannel (s : State) (c : Fin 8) (level : Level) (t : Time) : State :=
  (s.edgeTurn c level t).deliverDeadline c

/-- An accepted edge of line `l` is delivered to every channel that names the line, in an order that is a free choice (R23,
R113; log 22). -/
def State.deliverEdge (s : State) (l : Fin 8) (level : Level) (t : Time) : State :=
  s.inSomeOrder (s.channelsOf l) fun c s => s.edgeToChannel c level t

/-- The handed-on filter time moves the step deadline of channel `c` in TRACKING; a deadline already reached is delivered at
once (R25, R49, log 17). -/
def State.moveDeadline (s : State) (c : Fin 8) : State :=
  match s.channels[c].state, s.patternOf c with
  | .tracking k start _, some p =>
    match p.steps[k]? with
    | none => s
    | some st =>
      (s.putChannel c { s.channels[c] with
        state := .tracking k start (after start (st.max + s.filterOf c)) }).deliverDeadline c
  | _, _ => s

/-- The filter time of line `l` is handed to every channel that names the line, in an order that is a free choice (R25, R113;
log 22). -/
def State.handOnFilter (s : State) (l : Fin 8) : State := s.inSomeOrder (s.channelsOf l) fun c s => s.moveDeadline c

/-- An edge that a SET_LINE accepts at once reaches every channel that names the line, and so does the new filter time: each
channel acts on the edge before its own deadline moves, and nothing else is ordered among the channels (R26, R113; log 22). -/
def State.edgeThenFilter (s : State) (l : Fin 8) (level : Level) (t : Time) : State :=
  s.inTwoTurns (s.channelsOf l) fun c second s => if second then s.moveDeadline c else s.edgeTurn c level t

/-- STEP_DEADLINE: the deadline of channel `c` is delivered when device time has reached it; a deadline that is not held, was
cancelled or was moved later is not delivered (R18, R49, log 2). -/
def execStepDeadline (c : Fin 8) (s : State) : Host.Outcome State Fault Refusal := .next (s.deliverDeadline c)

/-- ACQUIRE_EXPIRY: a full acquire limit spent in SEEKING is a NO_SIGNAL deviation at the time of the expiry (R37, R60). -/
def execAcquireExpiry (c : Fin 8) (s : State) : Host.Outcome State Fault Refusal :=
  .next <|
    match s.channels[c].state with
    | .seeking (some due) =>
      if reached s.time due then
        s.handleDeviation c { kind := .noSignal, step := none, measured := none, time := s.time }
      else s
    | _ => s

end Sys2Proof.Machine
end

