-- ==== Sys2Proof/Machine/Startup.lean ====
section
/-! DEFINITION. Reset, STARTING and RUNNING entry (R131 to R136). -/

namespace Sys2Proof.Machine

/-- A reset begins: every block abandons what it was doing and takes its reset values, and a store operation in flight is
abandoned (R16, R29, R54, R90, R103, R120, R130, R131, R151). The banks, the levels outside and the waiting commands stay. -/
def State.beginReset (s : State) (cause : ResetCause) : State :=
  { device := .reset, cause, resetn := s.resetn, time := 0, planWritten := false
    patterns := Vector.replicate 16 none
    lines := Vector.ofFn fun l : Fin 8 => Line.atReset s.lines[l].pin
    channels := Vector.replicate 8 Channel.atReset
    reactions := Vector.replicate 32 none
    claims := Vector.replicate 6 []
    outputs := Vector.replicate 6 Generator.atReset
    queue := Queue.atReset
    store := { s.store with op := .idle }
    link := Link.atReset
    draws := s.draws
    pending := s.pending }

/-- A reset ends: STARTING begins at device time 0, and the store decides the validity of each bank (R17, R132). -/
def State.endReset (s : State) : State :=
  { s with
    device := .starting, time := 0
    store := { s.store with bankA := s.store.bankA.decide, bankB := s.store.bankB.decide } }

/-- POWER_ON: the supply comes up and a POWER_ON reset begins, whatever was in progress (R131). -/
def execPowerOn (s : State) : Host.Outcome State Fault Refusal := .next (s.beginReset .powerOn)

/-- RESET_LINE: RESETn is driven low with the supply stable, and a RESET_LINE reset begins, replacing a reset or a start in
progress (R131). -/
def execResetLine (s : State) : Host.Outcome State Fault Refusal :=
  .next (State.beginReset { s with resetn := .low } .resetLine)

/-- RESET_END: RESETn is high with the supply stable, so the reset ends (R131, R132). Outside RESET there is no reset to end
(log 2). -/
def execResetEnd (s : State) : Host.Outcome State Fault Refusal :=
  .next <| if s.device = .reset then State.endReset { s with resetn := .high } else s

/-- A Line Qualifier at RUNNING entry: raw and filtered level take the first sample, which is the sample of this microsecond
(R29, R19). -/
def Line.enterRunning (x : Line) : Line :=
  { x with sampled := true, raw := x.pin, filtered := x.pin, runStart := none, runts := 0, edges := 0 }

/-- Channel `c` is configured with boot-armed yes. -/
def State.bootArmed (s : State) (c : Fin 8) : Bool :=
  match s.channels[c].config with
  | some cfg => cfg.bootArmed
  | none => false

/-- The Line Qualifiers, the Output Generators and LINK take up their running state (R29, R105, R136, R151). -/
def State.enterBlocks (s : State) : State :=
  { s with
    device := .running
    lines := Vector.ofFn fun l : Fin 8 => s.lines[l].enterRunning
    outputs := Vector.ofFn fun o : Fin 6 => s.outputs[o].immediate s.time s.outputs[o].base
    link := { s.link with
      source := if s.link.timeout = 0 then .off else .watching (after s.time (s.link.timeout * 1000)) } }

/-- The boot-armed channels are armed as by ARM, from CH0 to CH7 (R54, R136). -/
def State.bootArm (s : State) : State := s.forChannels fun c s => if s.bootArmed c then s.armChannel c else s

/-- RUNNING entry: the blocks take up their running state, the STARTED notice is offered, then the boot-armed channels are
armed (R121, R136). -/
def State.enterRunning (s : State) (outcome : PlanOutcome) (generation : Option Count32) : State :=
  (s.enterBlocks.offer s.time .device
    (.started s.cause outcome generation ((List.finRange 8).countP fun c => s.bootArmed c))).bootArm

/-- The load writes the plan items into their blocks in STARTING; STATUS shows the timeout from then on, and nothing acts on
the items before RUNNING entry (R135, R151, R169; log 12). -/
def State.writePlan (s : State) : State := s.loadPlan s.store.selectPlan.1

/-- PLAN_LOAD_END: in STARTING the selected image, or the defaults, are the live plan, written now or before, and the part
enters RUNNING (R133 to R136). In RESET and RUNNING no load is in progress (log 2). -/
def execPlanLoadEnd (s : State) : Host.Outcome State Fault Refusal :=
  .next <|
    if s.device = .starting then
      let (img, outcome, generation) := s.store.selectPlan
      (s.loadPlan img).enterRunning outcome generation
    else s

end Sys2Proof.Machine
end

