-- ==== Sys2Proof/Machine/Link.lean ====
section
/-! DEFINITION. The Link Interface: frames and their CRC, the receiver, the inbox, the reply queue and its transmission, the
LINK source's trip, and the Request Executor's taking of a frame (R137 to R148). -/

namespace Sys2Proof.Machine

/-! Frames (R138) -/

/-- `n` shifts of the CRC register with the polynomial x^16 + x^12 + x^5 + 1. -/
def crcShift : Nat → BitVec 16 → BitVec 16
  | 0, c => c
  | n + 1, c => crcShift n (if c.msb then (c <<< 1) ^^^ 0x1021 else c <<< 1)

/-- One byte enters the CRC, most significant bit first. -/
def crcByte (c : BitVec 16) (b : Byte) : BitVec 16 := crcShift 8 (c ^^^ (b.zeroExtend 16 <<< 8))

/-- The CRC of a list of bytes, from FFFFH. -/
def crc16 (bytes : List Byte) : BitVec 16 := bytes.foldl crcByte 0xFFFF

/-- A whole frame: SYNC, LEN, body, CRC high byte first (R138). -/
def frameBytes (body : List Byte) : List Byte :=
  let covered := byte body.length :: body
  0xA5 :: covered ++ be16 (crc16 covered).toNat

/-- The bytes of a request frame. -/
def requestBytes (f : Frame) : List Byte := frameBytes (f.tag :: f.code :: f.params)

/-- The bytes of a reply frame (R173). -/
def Reply.bytes (r : Reply) : List Byte := frameBytes (r.tag :: r.status.toByte :: r.data)

/-! The reply queue (R144) -/

/-- Byte times to microseconds, rounded up: ten bit times are 3,125/36 µs. -/
def byteTimes (n : Nat) : Nat := (n * 3125 + 35) / 36

/-- When the last byte of the front reply has been sent: LEN is 2 plus the data length, and a frame has LEN + 4 bytes. -/
def Link.sentTime (k : Link) : Option Time :=
  match k.replies, k.sendStart with
  | r :: _, some start => some (after start (byteTimes (r.data.length + 6)))
  | _, _ => none

/-- The bytes of the front reply sent by device time `now`: byte j is sent at the start plus (j + 1) byte times (R144). -/
def Link.sentBytes (k : Link) (now : Time) : List Byte :=
  match k.replies, k.sendStart with
  | r :: _, some start =>
    r.bytes.take ((List.range r.bytes.length).countP fun j => byteTimes (j + 1) ≤ elapsed now start)
  | _, _ => []

/-- Bit `k` of a byte on TXD, of its ten bit times: a start bit, low, the eight data bits, least significant first, and a stop
bit, high. The level of the start bit and the order of the data bits are PRESUMED (log 14). -/
def lineBit (b : Byte) (k : Nat) : Level :=
  if k = 0 then .low
  else if k = 9 then .high
  else if b.getLsbD (k - 1) then .high else .low

/-- The level of TXD at device time `now`: the front reply is sent back to back, a bit time being 3,125/360 µs, and TXD is idle
at the high level while the reply queue is empty, so throughout RESET, and after the last byte (R144, R151). -/
def Link.txdLevel (k : Link) (now : Time) : Level :=
  match k.replies, k.sendStart with
  | r :: _, some start =>
    match r.bytes[elapsed now start * 360 / 3125 / 10]? with
    | some b => lineBit b (elapsed now start * 360 / 3125 % 10)
    | none => .high
  | _, _ => .high

/-- A reply is placed at the end of the reply queue; sending begins at once when it was empty (R144). -/
def Link.push (k : Link) (now : Time) (r : Reply) : Link :=
  { k with replies := k.replies ++ [r], sendStart := if k.replies.isEmpty then some now else k.sendStart }

/-- The executor may take a frame: the reply queue has room and no accepted RESET awaits the end of its reply (R143). -/
def Link.executorReady (k : Link) : Bool :=
  k.replies.length < Config.replyPlaces && !k.replies.any (·.thenReset)

/-! Good frames (R141, R142) -/

/-- A good frame restarts the silence timer while LINK is WATCHING (R141, R147). -/
def Link.restart (k : Link) (now : Time) : Link :=
  match k.source with
  | .watching _ => { k with source := .watching (after now (k.timeout * 1000)) }
  | _ => k

/-- A good frame joins the inbox, or finds it full: then it is discarded and counted, and a BUSY reply is produced when the
reply queue has a free place (R142). -/
def Link.enqueue (k : Link) (now : Time) (f : Frame) : Link :=
  if k.inbox.length < Config.inboxPlaces then { k with inbox := k.inbox ++ [f] }
  else
    let k := { k with busy := satSucc k.busy }
    if k.replies.length < Config.replyPlaces then
      k.push now { tag := f.tag, status := .busy, data := [], thenReset := false }
    else { k with errors := satSucc k.errors }

/-- A frame is good: it is handed on to the silence timer and to the inbox (R141). -/
def Link.goodFrame (k : Link) (now : Time) (f : Frame) : Link := (k.restart now).enqueue now f

/-! The receiver (R139 to R141) -/

/-- The frame in progress is abandoned or discarded, and counted (R139, R140, R141). -/
def Link.abandon (k : Link) : Link := { k with receiver := .hunting, errors := satSucc k.errors }

/-- The second check byte has arrived: the frame is good when its CRC matches (R141). -/
def Link.complete (k : Link) (now : Time) (covered : List Byte) (hi lo : Byte) : Link :=
  if crc16 covered = BitVec.ofNat 16 (nat16 hi lo) then
    match covered with
    | _ :: tag :: code :: params => { k with receiver := .hunting }.goodFrame now { tag, code, params }
    | _ => k.abandon
  else k.abandon

/-- A byte arrives (R139). -/
def Link.receive (k : Link) (now : Time) (b : Byte) : Link :=
  let gap := after now Config.gapTime
  match k.receiver with
  | .hunting => if b = 0xA5 then { k with receiver := .length gap } else k
  | .length _ =>
    if 2 ≤ b.toNat ∧ b.toNat ≤ 250 then { k with receiver := .body b.toNat [b] gap } else k.abandon
  | .body len bytes _ =>
    if (bytes ++ [b]).length = len + 1 then { k with receiver := .check len (bytes ++ [b]) [] gap }
    else { k with receiver := .body len (bytes ++ [b]) gap }
  | .check _ bytes [hi] _ => k.complete now bytes hi b
  | .check len bytes cs _ => { k with receiver := .check len bytes (cs ++ [b]) gap }

/-- The gap expiry, held while a frame is being received (R140). -/
def Receiver.gap : Receiver → Option Time
  | .hunting => none
  | .length gap => some gap
  | .body _ _ gap => some gap
  | .check _ _ _ gap => some gap

/-- BYTE_ARRIVAL: the receiver works in STARTING and RUNNING; in RESET bytes are lost (R137, R139). A byte that arrives less
than ten bit times after the byte before it is not refused: the model leaves the spacing of bytes to the sender (R137,
log 23). -/
def execByteArrival (b : Byte) (s : State) : Host.Outcome State Fault Refusal :=
  .next <| if s.device = .reset then s else { s with link := s.link.receive s.time b }

/-- FRAMING_FAULT: a frame in progress is abandoned and counted; in HUNTING there is no effect (R140). -/
def execFramingFault (s : State) : Host.Outcome State Fault Refusal :=
  .next <|
    if s.device = .reset then s
    else match s.link.receiver with
      | .hunting => s
      | _ => { s with link := s.link.abandon }

/-- GAP_EXPIRY: a pause of more than 2 ms inside a frame abandons it (R140). An expiry that is not held or not reached is not
delivered (R18, log 2). -/
def execGapExpiry (s : State) : Host.Outcome State Fault Refusal :=
  .next <|
    match s.link.receiver.gap with
    | some due => if reached s.time due then { s with link := s.link.abandon } else s
    | none => s

/-- The front reply is removed, and sending of the next one begins (R144). -/
def Link.pop (k : Link) (now : Time) : Link :=
  { k with replies := k.replies.tail, sendStart := if k.replies.tail.isEmpty then none else some now }

/-- REPLY_SENT: the last byte of the front reply has been sent. It is removed and the next is sent; the end of an accepted
RESET's reply begins and ends a RESET_REQUEST reset (R144, R146, R131). Before that time it is still being sent (log 2). -/
def execReplySent (s : State) : Host.Outcome State Fault Refusal :=
  .next <|
    match s.link.replies, s.link.sentTime with
    | r :: _, some due =>
      if reached s.time due then
        if r.thenReset then (s.beginReset .resetRequest).endReset
        else { s with link := s.link.pop s.time }
      else s
    | _, _ => s

/-- LINK trips: TRIPPED, then its claims, then its TRIP notice (R148). -/
def State.tripLink (s : State) : State :=
  let t := { s with link := { s.link with source := .tripped } }.makeClaims .link
  t.offer s.time (.trip .link) (.tripLink s.link.timeout (s.reactionCount .link))

/-- SILENCE_EXPIRY: LINK in WATCHING trips when its silence timer has run out (R148). -/
def execSilenceExpiry (s : State) : Host.Outcome State Fault Refusal :=
  .next <|
    match s.link.source with
    | .watching due => if reached s.time due then s.tripLink else s
    | _ => s

/-! The Request Executor (R143, R145, R152) -/

/-- How a request is answered: refused with a status and no change, carried out with data and an effect, or carried out with
the reset that follows the reply (R146, R152). -/
inductive Answer where
  | refuse (status : Status)
  | ok (data : List Byte) (s : State)
  | okThenReset (s : State)
  deriving DecidableEq, Repr

/-- The reply is placed in the reply queue after the effect (R143, R152). -/
def State.answer (s : State) (tag : Byte) : Answer → State
  | .refuse status => { s with link := s.link.push s.time { tag, status, data := [], thenReset := false } }
  | .ok data t => { t with link := t.link.push t.time { tag, status := .ok, data, thenReset := false } }
  | .okThenReset t => { t with link := t.link.push t.time { tag, status := .ok, data := [], thenReset := true } }

/-- The executor takes frame `f` when it is the oldest in the inbox and the executor may take a frame, and carries it out
(R143). A frame that does not wait in the inbox becomes good now, as R141 and R142 state, and is taken at once when it can
be; a frame that cannot be taken yet waits (log 3). In RESET the link is ignored (R132). -/
def State.request (s : State) (f : Frame) (carryOut : State → Answer) : State :=
  if s.device = .reset then s
  else
    let s1 := if s.link.inbox.contains f then s else { s with link := s.link.goodFrame s.time f }
    match s1.link.inbox with
    | g :: rest =>
      if g = f ∧ s1.link.executorReady then
        let t := { s1 with link := { s1.link with inbox := rest } }
        t.answer f.tag (carryOut t)
      else s1
    | [] => s1

/-- The device-state check: in STARTING every request but IDENTIFY and STATUS is refused with NOT_READY (R145, R154). -/
def whenRunning (s : State) (a : Answer) : Answer := if s.device = .running then a else .refuse .notReady

/-- A request without parameters (R172). -/
def noParams (params : List Byte) (a : Answer) : Answer :=
  match params with
  | [] => a
  | _ => .refuse .badLength

/-- A request with one one-byte parameter: its length, its value, then the device state (R145, R172). -/
def oneParam {α : Type} (params : List Byte) (s : State) (parse : Byte → Option α) (k : α → Answer) : Answer :=
  match params with
  | [b] =>
    match parse b with
    | some x => whenRunning s (k x)
    | none => .refuse .badValue
  | _ => .refuse .badLength

end Sys2Proof.Machine
end

