-- ==== Sys2Proof/Machine/Channels.lean ====
section
/-! DEFINITION. The channel and source requests: configuring, clearing, arming, pausing, resuming, disarming, injecting,
rearming and reading (R34 to R40, R51 to R53, R70 to R73, R150). -/

namespace Sys2Proof.Machine

/-- CONFIGURE_CHANNEL's effect: the configuration is written and the observed table cleared and sized (R34). -/
def State.configure (s : State) (c : Fin 8) (cfg : ChannelConfig) (n : Nat) : State :=
  s.putChannel c ({ s.channels[c] with config := some cfg }.clearObserved n)

/-- CONFIGURE_CHANNEL's checks and effect (R34, R159). -/
def configureChannelAnswer (params : List Byte) (s : State) : Answer :=
  match params with
  | [ch, line, pat, limit, forgive, pres, a, b, d, mask, boot] =>
    match finOf 8 ch, configOf line pat limit forgive pres a b d mask boot with
    | some c, some cfg =>
      whenRunning s <|
        if !s.channels[c].state.isIdle then .refuse .wrongState
        else match s.patterns[cfg.pattern] with
          | none => .refuse .noSuchPattern
          | some p => .ok [ch, byte p.steps.length] (s.configure c cfg p.steps.length)
    | _, _ => .refuse .badValue
  | _ => .refuse .badLength

/-- CLEAR_CHANNEL's effect: configuration and observed table removed, cycles, counts and last deviation cleared (R35). -/
def Channel.clear (ch : Channel) : Channel :=
  { ch with config := none, observed := [], cycles := 0, counts := DeviationCounts.zero, last := none, closure := none }

/-- CLEAR_CHANNEL's checks and effect (R35, R158). -/
def clearChannelAnswer (params : List Byte) (s : State) : Answer :=
  oneParam params s (finOf 8) fun c =>
    if !s.channels[c].state.isIdle then .refuse .wrongState
    else match s.channels[c].config with
      | none => .refuse .notConfigured
      | some _ => .ok [byte c] (s.putChannel c s.channels[c].clear)

/-- ARM's checks and effect (R36, R157). -/
def armAnswer (params : List Byte) (s : State) : Answer :=
  oneParam params s (finOf 8) fun c =>
    if !s.channels[c].state.isIdle then .refuse .wrongState
    else match s.channels[c].config with
      | none => .refuse .notConfigured
      | some _ =>
        if s.queue.tripPending (.channel c) then .refuse .noticePending
        else .ok [byte c] (s.armChannel c)

/-- PAUSE's checks and effect: PAUSED, the expiry cancelled, the step gone, all counts kept (R38). -/
def pauseAnswer (params : List Byte) (s : State) : Answer :=
  oneParam params s (finOf 8) fun c =>
    if s.channels[c].state.supervising then .ok [byte c] (s.putChannel c { s.channels[c] with state := .paused })
    else .refuse .wrongState

/-- RESUME's checks and effect: from PAUSED to SEEKING (R39). -/
def resumeAnswer (params : List Byte) (s : State) : Answer :=
  oneParam params s (finOf 8) fun c =>
    if s.channels[c].state = .paused then .ok [byte c] (s.seek c) else .refuse .wrongState

/-- DISARM's effect: IDLE from any state, strikes and good run 0, and from TRIPPED the claims released (R40). -/
def State.disarm (s : State) (c : Fin 8) : State :=
  if s.channels[c].state.isIdle then s
  else
    let t := s.putChannel c { s.channels[c] with state := .idle, strikes := 0, goodRun := 0 }
    if s.channels[c].state = .tripped then t.releaseClaims (.channel c) else t

/-- DISARM's checks and effect; the reply carries the previous state (R40, R152). -/
def disarmAnswer (params : List Byte) (s : State) : Answer :=
  oneParam params s (finOf 8) fun c => .ok [byte c, s.channels[c].state.toByte] (s.disarm c)

/-- INJECT's effect: an INJECTED deviation at the injection time, with the step in TRACKING (R73). -/
def State.inject (s : State) (c : Fin 8) : State :=
  let step := match s.channels[c].state with | .tracking k _ _ => some k | _ => none
  s.handleDeviation c { kind := .injected, step, measured := none, time := s.time }

/-- INJECT's checks and effect; the reply carries the strikes after and whether the channel tripped (R73). -/
def injectAnswer (params : List Byte) (s : State) : Answer :=
  oneParam params s (finOf 8) fun c =>
    if s.channels[c].state.supervising then
      let t := s.inject c
      .ok [byte c, byte t.channels[c].strikes, yesNo (t.channels[c].state = .tripped)] t
    else .refuse .wrongState

/-- REARM's effect on a channel: strikes and good run 0, claims released, SEEKING (R72). -/
def State.rearmChannel (s : State) (c : Fin 8) : State :=
  (((s.putChannel c { s.channels[c] with strikes := 0, goodRun := 0 }).releaseClaims (.channel c))).seek c

/-- REARM's effect on LINK: claims released, then WATCHING from now, or OFF when the recorded timeout is 0 (R150). -/
def State.rearmLink (s : State) : State :=
  State.releaseClaims
    { s with link := { s.link with
        source := if s.link.timeout = 0 then .off else .watching (after s.time (s.link.timeout * 1000)) } } .link

/-- REARM's checks and effect for either kind of source (R70, R150, R164). -/
def rearmAnswer (params : List Byte) (s : State) : Answer :=
  oneParam params s sourceOf fun src =>
    if !s.sourceTripped src then .refuse .wrongState
    else if s.queue.tripPending src then .refuse .noticePending
    else .ok [src.toByte, byte (s.claimCount src)] (match src with | .channel c => s.rearmChannel c | .link => s.rearmLink)

/-- READ_CHANNEL's data, in the order of R173 (R51). -/
def State.channelData (s : State) (c : Fin 8) : List Byte :=
  let ch := s.channels[c]
  let step := match ch.state with | .tracking k _ _ => some [byte k] | _ => none
  let start := match ch.state with | .tracking _ t _ => some (time32 t) | _ => none
  let expiry := match ch.state with
    | .tracking _ _ t => some (time32 t)
    | .seeking t => t.map time32
    | _ => none
  [byte c] ++ time32 s.time ++ optional (ch.config.map ChannelConfig.bytes) 10 ++ [ch.state.toByte] ++
    optional step 1 ++ optional start 4 ++ optional expiry 4 ++ [byte ch.strikes, byte ch.goodRun] ++ time32 ch.cycles ++
    count16 ch.counts.early ++ count16 ch.counts.late ++ count16 ch.counts.noSignal ++ count16 ch.counts.injected ++
    deviationBytes ch.last ++ [yesNo (s.queue.tripPending (.channel c))]

/-- READ_CHANNEL's checks and data (R51). -/
def readChannelAnswer (params : List Byte) (s : State) : Answer :=
  oneParam params s (finOf 8) fun c => .ok (s.channelData c) s

/-- READ_OBSERVED's checks and data (R52). -/
def readObservedAnswer (params : List Byte) (s : State) : Answer :=
  oneParam params s (finOf 8) fun c =>
    match s.channels[c].config with
    | none => .refuse .notConfigured
    | some cfg =>
      .ok ([byte c, byte cfg.pattern, byte s.channels[c].observed.length] ++
        s.channels[c].observed.flatMap ObservedEntry.bytes) s

/-- CLEAR_OBSERVED's checks and effect: the observed table, and a deadline closure with it (R53, R66). -/
def clearObservedAnswer (params : List Byte) (s : State) : Answer :=
  oneParam params s (finOf 8) fun c =>
    match s.channels[c].config with
    | none => .refuse .notConfigured
    | some _ =>
      let n := match s.patternOf c with | some p => p.steps.length | none => 0
      .ok [byte c] (s.putChannel c (s.channels[c].clearObserved n))

/-- CONFIGURE_CHANNEL (R34). -/
def execConfigureChannel (tag : Byte) (params : List Byte) (s : State) : Host.Outcome State Fault Refusal :=
  .next (s.request { tag, code := 0x50, params } (configureChannelAnswer params))

/-- CLEAR_CHANNEL (R35). -/
def execClearChannel (tag : Byte) (params : List Byte) (s : State) : Host.Outcome State Fault Refusal :=
  .next (s.request { tag, code := 0x51, params } (clearChannelAnswer params))

/-- ARM (R36). -/
def execArm (tag : Byte) (params : List Byte) (s : State) : Host.Outcome State Fault Refusal :=
  .next (s.request { tag, code := 0x52, params } (armAnswer params))

/-- DISARM (R40). -/
def execDisarm (tag : Byte) (params : List Byte) (s : State) : Host.Outcome State Fault Refusal :=
  .next (s.request { tag, code := 0x53, params } (disarmAnswer params))

/-- PAUSE (R38). -/
def execPause (tag : Byte) (params : List Byte) (s : State) : Host.Outcome State Fault Refusal :=
  .next (s.request { tag, code := 0x54, params } (pauseAnswer params))

/-- RESUME (R39). -/
def execResume (tag : Byte) (params : List Byte) (s : State) : Host.Outcome State Fault Refusal :=
  .next (s.request { tag, code := 0x55, params } (resumeAnswer params))

/-- INJECT (R73). -/
def execInject (tag : Byte) (params : List Byte) (s : State) : Host.Outcome State Fault Refusal :=
  .next (s.request { tag, code := 0x56, params } (injectAnswer params))

/-- READ_CHANNEL (R51). -/
def execReadChannel (tag : Byte) (params : List Byte) (s : State) : Host.Outcome State Fault Refusal :=
  .next (s.request { tag, code := 0x57, params } (readChannelAnswer params))

/-- READ_OBSERVED (R52). -/
def execReadObserved (tag : Byte) (params : List Byte) (s : State) : Host.Outcome State Fault Refusal :=
  .next (s.request { tag, code := 0x58, params } (readObservedAnswer params))

/-- CLEAR_OBSERVED (R53). -/
def execClearObserved (tag : Byte) (params : List Byte) (s : State) : Host.Outcome State Fault Refusal :=
  .next (s.request { tag, code := 0x59, params } (clearObservedAnswer params))

/-- REARM (R164). -/
def execRearm (tag : Byte) (params : List Byte) (s : State) : Host.Outcome State Fault Refusal :=
  .next (s.request { tag, code := 0x30, params } (rearmAnswer params))

end Sys2Proof.Machine
end

