-- ==== Sys2Proof/Decode.lean ====
section
/-! DEFINITION. Words of the table (no row gives bits), and request frames: the 28 request codes (R172), the command a
frame names and the frame a request command carries. -/

namespace Sys2Proof

/-- No row of the table gives encoding bits, so no word spells a command. -/
def decodeTableWord (_nbits _w : Nat) : Option Instr := none

/-- The command that a good frame names by its code (R172). A code that names no request is the row
UNKNOWN_REQUEST_CODE (R145). -/
def Instr.ofFrame (f : Frame) : Instr :=
  match f.code with
  | 0x10 => .identify f.tag f.params
  | 0x11 => .status f.tag f.params
  | 0x1F => .resetRequest f.tag f.params
  | 0x20 => .fetch f.tag f.params
  | 0x21 => .setAttention f.tag f.params
  | 0x28 => .setLink f.tag f.params
  | 0x30 => .rearm f.tag f.params
  | 0x38 => .savePlan f.tag f.params
  | 0x39 => .erasePlan f.tag f.params
  | 0x40 => .definePattern f.tag f.params
  | 0x41 => .deletePattern f.tag f.params
  | 0x42 => .readPattern f.tag f.params
  | 0x50 => .configureChannel f.tag f.params
  | 0x51 => .clearChannel f.tag f.params
  | 0x52 => .arm f.tag f.params
  | 0x53 => .disarm f.tag f.params
  | 0x54 => .pause f.tag f.params
  | 0x55 => .resume f.tag f.params
  | 0x56 => .inject f.tag f.params
  | 0x57 => .readChannel f.tag f.params
  | 0x58 => .readObserved f.tag f.params
  | 0x59 => .clearObserved f.tag f.params
  | 0x60 => .setReaction f.tag f.params
  | 0x61 => .readReaction f.tag f.params
  | 0x68 => .setOutput f.tag f.params
  | 0x69 => .readOutput f.tag f.params
  | 0x70 => .setLine f.tag f.params
  | 0x71 => .readLine f.tag f.params
  | code => .unknownRequestCode f.tag code f.params

/-- The 28 request codes (R172). -/
def requestCodes : List Byte :=
  [0x10, 0x11, 0x1F, 0x20, 0x21, 0x28, 0x30, 0x38, 0x39, 0x40, 0x41, 0x42, 0x50, 0x51] ++
  [0x52, 0x53, 0x54, 0x55, 0x56, 0x57, 0x58, 0x59, 0x60, 0x61, 0x68, 0x69, 0x70, 0x71]

/-- The frame that a request command carries; none for an event (R172). -/
def Instr.frame? : Instr → Option Frame
  | .identify t p => some ⟨t, 0x10, p⟩
  | .status t p => some ⟨t, 0x11, p⟩
  | .resetRequest t p => some ⟨t, 0x1F, p⟩
  | .fetch t p => some ⟨t, 0x20, p⟩
  | .setAttention t p => some ⟨t, 0x21, p⟩
  | .setLink t p => some ⟨t, 0x28, p⟩
  | .rearm t p => some ⟨t, 0x30, p⟩
  | .savePlan t p => some ⟨t, 0x38, p⟩
  | .erasePlan t p => some ⟨t, 0x39, p⟩
  | .definePattern t p => some ⟨t, 0x40, p⟩
  | .deletePattern t p => some ⟨t, 0x41, p⟩
  | .readPattern t p => some ⟨t, 0x42, p⟩
  | .configureChannel t p => some ⟨t, 0x50, p⟩
  | .clearChannel t p => some ⟨t, 0x51, p⟩
  | .arm t p => some ⟨t, 0x52, p⟩
  | .disarm t p => some ⟨t, 0x53, p⟩
  | .pause t p => some ⟨t, 0x54, p⟩
  | .resume t p => some ⟨t, 0x55, p⟩
  | .inject t p => some ⟨t, 0x56, p⟩
  | .readChannel t p => some ⟨t, 0x57, p⟩
  | .readObserved t p => some ⟨t, 0x58, p⟩
  | .clearObserved t p => some ⟨t, 0x59, p⟩
  | .setReaction t p => some ⟨t, 0x60, p⟩
  | .readReaction t p => some ⟨t, 0x61, p⟩
  | .setOutput t p => some ⟨t, 0x68, p⟩
  | .readOutput t p => some ⟨t, 0x69, p⟩
  | .setLine t p => some ⟨t, 0x70, p⟩
  | .readLine t p => some ⟨t, 0x71, p⟩
  | .unknownRequestCode t c p => some ⟨t, c, p⟩
  | .rawChange _ _ => none
  | .qualificationExpiry _ => none
  | .stepDeadline _ => none
  | .acquireExpiry _ => none
  | .frameEndExpiry _ => none
  | .saveCompletion _ => none
  | .secondBankInvalidation => none
  | .eraseCompletion => none
  | .powerOn => none
  | .resetLine => none
  | .resetEnd => none
  | .planLoadEnd => none
  | .byteArrival _ => none
  | .framingFault => none
  | .gapExpiry => none
  | .replySent => none
  | .silenceExpiry => none

end Sys2Proof
end

