-- ==== Sys2Proof/Machine/Lines.lean ====
section
/-! DEFINITION. The Line Qualifiers: raw changes, runts, the qualification expiry and accepted edges (R19 to R23). -/

namespace Sys2Proof.Machine

/-- The qualification expiry of a line, held while a run is (R20, R22). -/
def Line.expiry (x : Line) : Option Time := x.runStart.map fun t => after t x.filter

/-- The line accepts its raw level: the filtered level takes it, the edge is counted, the run ends (R22 steps 1 to 3). -/
def Line.accept (x : Line) : Line :=
  { x with filtered := x.raw, edges := x.edges + 1, runStart := none }

/-- Line `l` produces an accepted edge stamped `t`, delivered to its channels (R22, R23). -/
def State.acceptEdge (s : State) (l : Fin 8) (t : Time) : State :=
  (s.putLine l s.lines[l].accept).deliverEdge l s.lines[l].raw t

/-- RAW_CHANGE: a sample of line `l` finds `level`. In RUNNING a level differing from the raw level held is a raw change: it
begins a run or, with F = 0, is accepted at once (R20), or it ends the run held as a runt (R21). A sample equal to the raw
level is no raw change. The line is sampled once every microsecond: when the sample of this microsecond has been taken, the
level outside changes and is seen by the next sample, if it still stands then (R19, log 8). In RESET and STARTING the lines
are not qualified: only the level on the pin changes (R29). -/
def execRawChange (l : Fin 8) (level : Level) (s : State) : Host.Outcome State Fault Refusal :=
  .next <|
    let x := { s.lines[l] with pin := level }
    if s.device = .running ∧ x.sampled = false then
      let x := { x with sampled := true }
      if level = x.raw then s.putLine l x
      else
        let x := { x with raw := level }
        match x.runStart with
        | some _ => s.putLine l { x with runStart := none, runts := satSucc x.runts }
        | none =>
          if x.filter = 0 then (s.putLine l x).acceptEdge l s.time
          else s.putLine l { x with runStart := some s.time }
    else s.putLine l x

/-- QUALIFICATION_EXPIRY: the run of line `l` has lasted F, and the edge is accepted, stamped with the run-start time (R22).
An expiry that is not held or not reached is not delivered (R18, log 2). -/
def execQualificationExpiry (l : Fin 8) (s : State) : Host.Outcome State Fault Refusal :=
  .next <|
    match s.lines[l].runStart with
    | some t => if reached s.time (after t s.lines[l].filter) then s.acceptEdge l t else s
    | none => s

/-- The stages of an accepted SET_LINE, with whether an edge was accepted at once: F replaced and judged against a run in
progress, the edge and the new F handed to the channels (R25, R26), the counts cleared when asked (R27). -/
def State.setFilter (s : State) (l : Fin 8) (f : Nat) (clear : Bool) : State × Bool :=
  let s1 := s.putLine l { s.lines[l] with filter := f }
  let (s2, accepted) := match s1.lines[l].runStart with
    | some t =>
      if f ≤ elapsed s.time t then ((s1.putLine l s1.lines[l].accept).edgeThenFilter l s1.lines[l].raw t, true)
      else (s1.handOnFilter l, false)
    | none => (s1.handOnFilter l, false)
  (if clear then s2.putLine l { s2.lines[l] with runts := 0, edges := 0 } else s2, accepted)

end Sys2Proof.Machine
end

