-- ==== Sys2Proof/Machine/Device.lean ====
section
/-! DEFINITION. The requests of the device, the lines, the notices, the link and the store: IDENTIFY, STATUS, RESET, FETCH,
SET_ATTENTION, SET_LINE, READ_LINE, SET_LINK, SAVE_PLAN, ERASE_PLAN and an unknown code. -/

namespace Sys2Proof.Machine

/-- IDENTIFY's data: Sutrene and one 00H, SU86, B, and the fourteen capacities (R163, R173). -/
def identifyData : List Byte :=
  [0x53, 0x75, 0x74, 0x72, 0x65, 0x6E, 0x65, 0x00] ++ [0x53, 0x55, 0x38, 0x36] ++ [0x42] ++
    [8, 8, 6, 16, 96, 16, 32, 9, 48, 39, 8, 2, 4, 250]

/-- IDENTIFY's check and data: it reads no state, in STARTING as in RUNNING (R163). -/
def identifyAnswer (params : List Byte) (s : State) : Answer := noParams params (.ok identifyData s)

/-- A bank in STATUS: validity, and the generation, 00000000H when invalid (R168, R170). -/
def Bank.bytes (b : Bank) : List Byte :=
  match b.generation with
  | some g => 1 :: time32 g
  | none => [0, 0, 0, 0, 0]

/-- STATUS's data, in the order of R173 (R168). -/
def State.statusData (s : State) : List Byte :=
  [s.device.toByte] ++ time32 s.time ++ [byte s.queue.notices.length] ++ count16 s.queue.dropped ++
    [s.link.source.toByte] ++ be16 s.link.timeout ++ count16 s.link.errors ++ count16 s.link.busy ++
    [s.store.op.toByte] ++ s.store.bankA.bytes ++ s.store.bankB.bytes

/-- STATUS's check and data, in STARTING as in RUNNING (R168, R169). -/
def statusAnswer (params : List Byte) (s : State) : Answer := noParams params (.ok s.statusData s)

/-- RESET's checks: it is answered OK, and the reset follows the reply (R146, R165). -/
def resetAnswer (params : List Byte) (s : State) : Answer := noParams params (whenRunning s (.okThenReset s))

/-- FETCH's `n`: 1 to 8 (R114). -/
def fetchCountOf (b : Byte) : Option Nat := if 1 ≤ b.toNat ∧ b.toNat ≤ Config.maxFetch then some b.toNat else none

/-- FETCH's effect: up to `n` notices leave the front of the list, and the dropped count is cleared (R114). -/
def State.fetch (s : State) (n : Nat) : State :=
  { s with queue := { s.queue with notices := s.queue.notices.drop n, dropped := 0 } }

/-- FETCH's checks, data and effect (R114, R162, R175). -/
def fetchAnswer (params : List Byte) (s : State) : Answer :=
  oneParam params s fetchCountOf fun n =>
    let taken := s.queue.notices.take n
    let t := s.fetch n
    .ok ([byte taken.length, byte t.queue.notices.length] ++ count16 s.queue.dropped ++ taken.flatMap Notice.bytes) t

/-- SET_ATTENTION's checks and effect; ATTN follows the list and the new mask (R118, R119). -/
def setAttentionAnswer (params : List Byte) (s : State) : Answer :=
  oneParam params s (maskOf 3) fun mask =>
    let t := { s with queue := { s.queue with mask } }
    .ok [byte mask.toNat, yesNo t.attn] t

/-- SET_LINE's checks, effect and data; the two counts are those before the request (R25 to R27). -/
def setLineAnswer (params : List Byte) (s : State) : Answer :=
  match params with
  | [line, f1, f2, clear] =>
    match finOf 8 line, boolOf clear with
    | some l, some clear =>
      if nat16 f1 f2 ≤ Config.maxFilter then
        whenRunning s <|
          let (t, accepted) := s.setFilter l (nat16 f1 f2) clear
          .ok ([line] ++ be16 t.lines[l].filter ++ count16 s.lines[l].runts ++ time32 s.lines[l].edges ++ [yesNo accepted]) t
      else .refuse .badValue
    | _, _ => .refuse .badValue
  | _ => .refuse .badLength

/-- READ_LINE's data, in the order of R173 (R28). -/
def State.lineData (s : State) (l : Fin 8) : List Byte :=
  let x := s.lines[l]
  [byte l] ++ time32 s.time ++ be16 x.filter ++ [levelByte x.raw, levelByte x.filtered] ++
    optional (x.runStart.map time32) 4 ++ count16 x.runts ++ time32 x.edges ++ [channelSet (s.namesLine l)]

/-- READ_LINE's checks and data (R28). -/
def readLineAnswer (params : List Byte) (s : State) : Answer :=
  oneParam params s (finOf 8) fun l => .ok (s.lineData l) s

/-- LINK after SET_LINK: t is recorded; outside TRIPPED it goes OFF, or watches from now (R149). -/
def Link.setTimeout (k : Link) (now : Time) (t : Nat) : Link :=
  { k with
    timeout := t
    source := if k.source = .tripped then .tripped else if t = 0 then .off else .watching (after now (t * 1000)) }

/-- SET_LINK's checks and effect (R149). -/
def setLinkAnswer (params : List Byte) (s : State) : Answer :=
  match params with
  | [t1, t2] =>
    if nat16 t1 t2 = 0 ∨ 10 ≤ nat16 t1 t2 ∧ nat16 t1 t2 ≤ 60000 then
      whenRunning s <|
        let t := { s with link := s.link.setTimeout s.time (nat16 t1 t2) }
        .ok ([t.link.source.toByte] ++ be16 t.link.timeout) t
    else .refuse .badValue
  | _ => .refuse .badLength

/-- The generation a save writes: the newest valid generation plus one, or 1 (R124, R125). -/
def Store.nextGeneration (st : Store) : Count32 :=
  match st.newestGeneration with
  | some g => g + 1
  | none => 1

/-- SAVE_PLAN's effect: snapshot, target invalidated, SAVING (R125). -/
def State.startSave (s : State) : State :=
  { s with
    store := { s.store.invalidate s.store.other with
      op := .saving s.store.other s.store.nextGeneration s.snapshot s.time } }

/-- SAVE_PLAN's checks and effect (R125, R166). -/
def savePlanAnswer (params : List Byte) (s : State) : Answer :=
  noParams params <| whenRunning s <|
    if s.store.op ≠ .idle then .refuse .storeBusy
    else if s.store.newestGeneration = some 4294967295 then .refuse .storeExhausted
    else .ok ([s.store.other.toByte] ++ time32 s.store.nextGeneration) s.startSave

/-- ERASE_PLAN's effect: the first bank invalidated, ERASING with the second bank still to be invalidated (R127). -/
def State.startErase (s : State) : State :=
  { s with store := { s.store.invalidate s.store.other with op := .erasing (some s.store.second) s.time } }

/-- ERASE_PLAN's checks and effect (R127). -/
def erasePlanAnswer (params : List Byte) (s : State) : Answer :=
  noParams params <| whenRunning s <|
    if s.store.op ≠ .idle then .refuse .storeBusy
    else .ok [s.store.other.toByte, s.store.second.toByte] s.startErase

/-- IDENTIFY (R163). -/
def execIdentify (tag : Byte) (params : List Byte) (s : State) : Host.Outcome State Fault Refusal :=
  .next (s.request { tag, code := 0x10, params } (identifyAnswer params))

/-- STATUS (R168). -/
def execStatus (tag : Byte) (params : List Byte) (s : State) : Host.Outcome State Fault Refusal :=
  .next (s.request { tag, code := 0x11, params } (statusAnswer params))

/-- RESET (R146). -/
def execResetRequest (tag : Byte) (params : List Byte) (s : State) : Host.Outcome State Fault Refusal :=
  .next (s.request { tag, code := 0x1F, params } (resetAnswer params))

/-- FETCH (R114). -/
def execFetch (tag : Byte) (params : List Byte) (s : State) : Host.Outcome State Fault Refusal :=
  .next (s.request { tag, code := 0x20, params } (fetchAnswer params))

/-- SET_ATTENTION (R118). -/
def execSetAttention (tag : Byte) (params : List Byte) (s : State) : Host.Outcome State Fault Refusal :=
  .next (s.request { tag, code := 0x21, params } (setAttentionAnswer params))

/-- SET_LINK (R149). -/
def execSetLink (tag : Byte) (params : List Byte) (s : State) : Host.Outcome State Fault Refusal :=
  .next (s.request { tag, code := 0x28, params } (setLinkAnswer params))

/-- SAVE_PLAN (R125). -/
def execSavePlan (tag : Byte) (params : List Byte) (s : State) : Host.Outcome State Fault Refusal :=
  .next (s.request { tag, code := 0x38, params } (savePlanAnswer params))

/-- ERASE_PLAN (R127). -/
def execErasePlan (tag : Byte) (params : List Byte) (s : State) : Host.Outcome State Fault Refusal :=
  .next (s.request { tag, code := 0x39, params } (erasePlanAnswer params))

/-- SET_LINE (R25). -/
def execSetLine (tag : Byte) (params : List Byte) (s : State) : Host.Outcome State Fault Refusal :=
  .next (s.request { tag, code := 0x70, params } (setLineAnswer params))

/-- READ_LINE (R28). -/
def execReadLine (tag : Byte) (params : List Byte) (s : State) : Host.Outcome State Fault Refusal :=
  .next (s.request { tag, code := 0x71, params } (readLineAnswer params))

/-- UNKNOWN_REQUEST_CODE: refused with UNKNOWN_REQUEST and the frame's TAG, in STARTING as in RUNNING (R145). A code that
names a request is that request's row, not this one (log 20). -/
def execUnknownRequestCode (tag code : Byte) (params : List Byte) (s : State) : Host.Outcome State Fault Refusal :=
  .next (if requestCodes.contains code then s
    else s.request { tag, code, params } fun _ => .refuse .unknownRequest)

end Sys2Proof.Machine
end

