-- ==== Sys2Proof/Machine/Outputs.lean ====
section
/-! DEFINITION. The reaction and output requests, and the frame-end expiry: SET_REACTION, READ_REACTION, SET_OUTPUT,
READ_OUTPUT, FRAME_END_EXPIRY (R77 to R79, R95, R97 to R99, R102). -/

namespace Sys2Proof.Machine

/-- The number of non-empty reaction entries (R78). -/
def State.reactionsInUse (s : State) : Nat := s.reactions.toList.countP (·.isSome)

/-- The content SET_REACTION asks for: the outer option is the value check, the inner one EMPTY or a reaction. The reaction
fields are examined only when the flag is 00H (R77, R172). -/
def reactionOf (flag src out d1 d2 prio : Byte) : Option (Option Reaction) :=
  if flag = 1 then some none
  else if flag = 0 then
    match sourceOf src, finOf 6 out, driveOf d1 d2, finOf 8 prio with
    | some source, some output, some drive, some priority => some (some { source, output, drive, priority })
    | _, _, _, _ => none
  else none

/-- The source of a reaction entry, present or requested, is TRIPPED (R77). -/
def State.reactionTripped (s : State) (r : Option Reaction) : Bool :=
  match r with
  | some r => s.sourceTripped r.source
  | none => false

/-- SET_REACTION's checks and effect (R77, R78, R167). -/
def setReactionAnswer (params : List Byte) (s : State) : Answer :=
  match params with
  | [index, flag, src, out, d1, d2, prio] =>
    match finOf 32 index, reactionOf flag src out d1 d2 prio with
    | some i, some r =>
      whenRunning s <|
        if s.reactionTripped s.reactions[i] then .refuse .sourceTripped
        else if s.reactionTripped r then .refuse .sourceTripped
        else
          let t := s.putReaction i r
          .ok [index, byte t.reactionsInUse] t
    | _, _ => .refuse .badValue
  | _ => .refuse .badLength

/-- The claim list an entry's claim sits in, and its place there (R79, R81). -/
def State.claimPosition (s : State) (i : Fin 32) (r : Reaction) : Option Nat :=
  s.claims[r.output].findIdx? fun c => c.index = i

/-- The winning claim on the entry's output is the entry's (R79, R84). -/
def State.claimWins (s : State) (i : Fin 32) (r : Reaction) : Bool :=
  match winner s.claims[r.output] with
  | some c => c.index = i
  | none => false

/-- READ_REACTION's data, 12 bytes (R79, R173). -/
def State.reactionData (s : State) (i : Fin 32) : List Byte :=
  match s.reactions[i] with
  | none => [byte i, 1, 0, 0, 0, 0, 0, 0] ++ optional none 1 ++ optional none 1
  | some r =>
    let pos := s.claimPosition i r
    [byte i, 0, r.source.toByte, byte r.output] ++ r.drive.bytes ++ [byte r.priority, yesNo pos.isSome] ++
      optional (pos.map fun p => [byte p]) 1 ++ optional (pos.map fun _ => [yesNo (s.claimWins i r)]) 1

/-- READ_REACTION's checks and data (R79). -/
def readReactionAnswer (params : List Byte) (s : State) : Answer :=
  oneParam params s (finOf 32) fun i => .ok (s.reactionData i) s

/-- When a SET_OUTPUT takes effect (R97). -/
inductive Taken where
  | atOnce
  | atFrameEnd
  | recorded
  deriving DecidableEq, Repr

/-- The byte of `taken` (R170). -/
def Taken.toByte : Taken → Byte
  | .atOnce => 0
  | .atFrameEnd => 1
  | .recorded => 2

/-- The generator after an accepted SET_OUTPUT, with whether claims are in force on the output: a base change alone (R98), or
a rate change with the base (R99). -/
def Generator.setBase (g : Generator) (now : Time) (claimed : Bool) (base : Drive) (rate : Fin 5) : Generator × Taken :=
  if rate = g.rate then
    if claimed then ({ g with base }, .recorded)
    else if g.applied.isDuty && base.isDuty then ({ g with base, pending := true }, .atFrameEnd)
    else ({ g with base, pending := false }.apply now base, .atOnce)
  else if claimed then ({ g with base, rate }.apply now g.applied, .recorded)
  else ({ g with base, rate, pending := false }.apply now base, .atOnce)

/-- SET_OUTPUT's checks and effect; `applies at` is the awaited frame end for AT_FRAME_END (R97 to R99). -/
def setOutputAnswer (params : List Byte) (s : State) : Answer :=
  match params with
  | [out, d1, d2, rate] =>
    match finOf 6 out, driveOf d1 d2, finOf 5 rate with
    | some o, some base, some r =>
      whenRunning s <|
        let (g, taken) := s.outputs[o].setBase s.time (!s.claims[o].isEmpty) base r
        .ok ([out, taken.toByte] ++ optional (if taken = .atFrameEnd then g.frameEnd.map time32 else none) 4)
          (s.putOutput o g)
    | _, _, _ => .refuse .badValue
  | _ => .refuse .badLength

/-- READ_OUTPUT's data, in the order of R173 (R102). -/
def State.outputData (s : State) (o : Fin 6) : List Byte :=
  let g := s.outputs[o]
  [byte o] ++ time32 s.time ++ g.base.bytes ++ [byte g.rate] ++ (s.effective o).bytes ++ g.applied.bytes ++
    [yesNo g.pending] ++ optional (g.frameStart.map time32) 4 ++ [byte s.claims[o].length] ++
    s.claims[o].flatMap Claim.bytes

/-- READ_OUTPUT's checks and data (R102). -/
def readOutputAnswer (params : List Byte) (s : State) : Answer :=
  oneParam params s (finOf 6) fun o => .ok (s.outputData o) s

/-- The generator at the end of the frame begun at `start`: the waiting base is applied, if any, and a new frame begins at the
expiry time (R95). -/
def Generator.nextFrame (g : Generator) (start : Time) : Generator :=
  let t := after start (frameLength g.rate)
  if g.pending then { g with pending := false }.apply t g.base else { g with frameStart := some t }

/-- FRAME_END_EXPIRY (R95). An expiry that is not held or not reached is not delivered (R18, log 2). -/
def execFrameEndExpiry (o : Fin 6) (s : State) : Host.Outcome State Fault Refusal :=
  .next <|
    match s.outputs[o].frameStart with
    | some start =>
      if reached s.time (after start (frameLength s.outputs[o].rate)) then s.putOutput o (s.outputs[o].nextFrame start)
      else s
    | none => s

/-- SET_REACTION (R77). -/
def execSetReaction (tag : Byte) (params : List Byte) (s : State) : Host.Outcome State Fault Refusal :=
  .next (s.request { tag, code := 0x60, params } (setReactionAnswer params))

/-- READ_REACTION (R79). -/
def execReadReaction (tag : Byte) (params : List Byte) (s : State) : Host.Outcome State Fault Refusal :=
  .next (s.request { tag, code := 0x61, params } (readReactionAnswer params))

/-- SET_OUTPUT (R97). -/
def execSetOutput (tag : Byte) (params : List Byte) (s : State) : Host.Outcome State Fault Refusal :=
  .next (s.request { tag, code := 0x68, params } (setOutputAnswer params))

/-- READ_OUTPUT (R102). -/
def execReadOutput (tag : Byte) (params : List Byte) (s : State) : Host.Outcome State Fault Refusal :=
  .next (s.request { tag, code := 0x69, params } (readOutputAnswer params))

end Sys2Proof.Machine
end

