-- ==== Sys2Proof/Machine/Patterns.lean ====
section
/-! DEFINITION. The pattern requests: DEFINE_PATTERN, DELETE_PATTERN, READ_PATTERN (R7 to R15, R160, R161). -/

namespace Sys2Proof.Machine

/-- The pattern in slot `id` is named by a channel outside IDLE (R8). -/
def State.patternFollowed (s : State) (id : Fin 16) : Bool :=
  (List.finRange 8).any fun c => s.namesPattern id c && !s.channels[c].state.isIdle

/-- The pattern in slot `id` is named by some channel configuration (R14). -/
def State.patternNamed (s : State) (id : Fin 16) : Bool := (List.finRange 8).any (s.namesPattern id)

/-- The steps available to a DEFINE_PATTERN: those free, and those of the pattern it replaces (R9). -/
def State.stepsAvailable (s : State) (id : Fin 16) : Nat :=
  s.freeSteps + match s.patterns[id] with | some p => p.steps.length | none => 0

/-- The number of channels whose observed tables a DEFINE_PATTERN on `id` clears (R12, R13). -/
def State.tablesCleared (s : State) (id : Fin 16) : Nat :=
  match s.patterns[id] with
  | some _ => (List.finRange 8).countP (s.namesPattern id)
  | none => 0

/-- A replacement clears the observed table of every channel naming the pattern; a creation clears none (R12). -/
def State.clearTables (s : State) (id : Fin 16) (n : Nat) : State :=
  s.forChannels fun c s => if s.namesPattern id c then s.putChannel c (s.channels[c].clearObserved n) else s

/-- The effect of an accepted DEFINE_PATTERN: creation or replacement, with the tables of a replaced pattern's channels
cleared in the same change (R10 to R12). -/
def State.definePattern (s : State) (id : Fin 16) (p : Pattern) : State :=
  match s.patterns[id] with
  | some _ => (s.putPattern id (some p)).clearTables id p.steps.length
  | none => s.putPattern id (some p)

/-- DEFINE_PATTERN's checks and effect (R7 to R13, R160): length by the declared count, values, device state, IN_USE, then
POOL_FULL. -/
def definePatternAnswer (params : List Byte) (s : State) : Answer :=
  match params with
  | id :: level :: n :: records =>
    if records.length ≠ 7 * n.toNat then .refuse .badLength
    else
      match finOf 16 id, levelOf level, stepsOf records with
      | some i, some startLevel, some steps =>
        if n.toNat % 2 = 0 ∧ 2 ≤ n.toNat ∧ n.toNat ≤ 16 then
          whenRunning s <|
            if s.patternFollowed i then .refuse .inUse
            else if s.stepsAvailable i < n.toNat then .refuse .poolFull
            else
              let t := s.definePattern i { startLevel, steps }
              .ok [id, byte t.freeSteps, byte (s.tablesCleared i)] t
        else .refuse .badValue
      | _, _, _ => .refuse .badValue
  | _ => .refuse .badLength

/-- DELETE_PATTERN's checks and effect (R14, R161). -/
def deletePatternAnswer (params : List Byte) (s : State) : Answer :=
  oneParam params s (finOf 16) fun id =>
    match s.patterns[id] with
    | none => .refuse .noSuchPattern
    | some _ =>
      if s.patternNamed id then .refuse .inUse
      else
        let t := s.putPattern id none
        .ok [byte id, byte t.freeSteps] t

/-- READ_PATTERN's checks and data (R15). -/
def readPatternAnswer (params : List Byte) (s : State) : Answer :=
  oneParam params s (finOf 16) fun id =>
    match s.patterns[id] with
    | none => .refuse .noSuchPattern
    | some p =>
      .ok ([byte id, levelByte p.startLevel, byte p.steps.length] ++ p.steps.flatMap PatternStep.bytes ++
        [byte s.freeSteps, channelSet (s.namesPattern id)]) s

/-- DEFINE_PATTERN (R8). -/
def execDefinePattern (tag : Byte) (params : List Byte) (s : State) : Host.Outcome State Fault Refusal :=
  .next (s.request { tag, code := 0x40, params } (definePatternAnswer params))

/-- DELETE_PATTERN (R14). -/
def execDeletePattern (tag : Byte) (params : List Byte) (s : State) : Host.Outcome State Fault Refusal :=
  .next (s.request { tag, code := 0x41, params } (deletePatternAnswer params))

/-- READ_PATTERN (R15). -/
def execReadPattern (tag : Byte) (params : List Byte) (s : State) : Host.Outcome State Fault Refusal :=
  .next (s.request { tag, code := 0x42, params } (readPatternAnswer params))

end Sys2Proof.Machine
end

