-- ==== Sys2Proof/Machine/Timebase.lean ====
section
/-! DEFINITION. What the part does when no command waits: the internal events that are due at the present device time, the
choice among them, and the passing of a microsecond (R17, R18, R143, log 1). -/

namespace Sys2Proof.Machine

/-- An expiry is held and device time has reached it (R18). -/
def State.due (s : State) (expiry : Option Time) : Bool :=
  match expiry with
  | some t => reached s.time t
  | none => false

/-- The expiry a channel holds (R31). -/
def Channel.expiry (ch : Channel) : Option Time :=
  match ch.state with
  | .seeking t => t
  | .tracking _ _ t => some t
  | _ => none

/-- The event of a channel's expiry (R49, R60). -/
def Channel.expiryEvent (ch : Channel) (c : Fin 8) : Instr :=
  match ch.state with
  | .seeking _ => .acquireExpiry c
  | _ => .stepDeadline c

/-- The executor's taking of the oldest frame, when it may take one (R143). -/
def State.takeEvent (s : State) : List Instr :=
  match s.link.inbox with
  | f :: _ => if s.link.executorReady then [Instr.ofFrame f] else []
  | [] => []

/-- A store operation that completes only at its bound (R126, R128, log 9). -/
def State.storeEvent (s : State) : List Instr :=
  match s.store.op with
  | .saving _ _ _ since =>
    if Config.saveBound ≤ elapsed s.time since then [.saveCompletion (Config.readBackMatches s.draws)] else []
  | .erasing _ since => if Config.eraseBound ≤ elapsed s.time since then [.eraseCompletion] else []
  | .idle => []

/-- A load that ends only at its bound (R135, log 9). -/
def State.loadEvent (s : State) : List Instr :=
  if s.device = .starting ∧ Config.loadBound ≤ s.time.toNat then [.planLoadEnd] else []

/-- The sample of a line in this microsecond, still to be taken, finds the level outside differing from the raw level: a raw
change (R19, log 8). -/
def State.sampleDue (s : State) (l : Fin 8) : Bool :=
  s.device = .running && !s.lines[l].sampled && s.lines[l].pin ≠ s.lines[l].raw

/-- The internal events due at the present device time; none in RESET, where every expiry is cancelled (R131). -/
def State.dueEvents (s : State) : List Instr :=
  if s.device = .reset then []
  else
    s.takeEvent ++
    ((List.finRange 8).filter s.sampleDue).map (fun l => .rawChange l s.lines[l].pin) ++
    ((List.finRange 8).filter fun l => s.due s.lines[l].expiry).map Instr.qualificationExpiry ++
    ((List.finRange 8).filter fun c => s.due s.channels[c].expiry).map (fun c => s.channels[c].expiryEvent c) ++
    ((List.finRange 6).filter fun o => s.due s.outputs[o].frameEnd).map Instr.frameEndExpiry ++
    (if s.due s.link.receiver.gap then [.gapExpiry] else []) ++
    (if s.due s.link.sentTime then [.replySent] else []) ++
    (match s.link.source with
      | .watching t => if s.due (some t) then [.silenceExpiry] else []
      | _ => []) ++
    s.storeEvent ++ s.loadEvent

/-- The free choice among several due events: the rules let any be taken first (log 1). -/
def State.pick (s : State) (events : List Instr) : Option Instr :=
  events[Config.eventChoice s.draws % events.length]?

/-- One microsecond passes: device time rises by one, except in RESET (R17), a deadline closure ends, since device time moves
past the time its deadline was delivered at (R66), and each line is to be sampled again (R19). -/
def State.tick (s : State) : State :=
  if s.device = .reset then s
  else
    { s with
      time := s.time + 1
      channels := Vector.ofFn fun c : Fin 8 => { s.channels[c] with closure := none }
      lines := Vector.ofFn fun l : Fin 8 => { s.lines[l] with sampled := false } }

/-- Nothing is due: a microsecond passes, or, in STARTING before the plan is written, a free choice has the load write the
plan now (R135, R169; log 12). -/
def State.pass (s : State) : State :=
  if s.device = .starting ∧ s.planWritten = false then
    if Config.planWritten s.draws then s.drawn.writePlan else s.drawn.tick
  else s.tick

end Sys2Proof.Machine
end

