-- ==== Sys2Proof/Machine/Dispatch.lean ====
section
/-! DEFINITION. The meaning of each command: one direct call per constructor of Instr. -/

namespace Sys2Proof.Machine

/-- A command's effect on everything but the queue of waiting commands. -/
def exec (i : Instr) (s : State) : Host.Outcome State Fault Refusal :=
  match i with
  | .arm tag params => Sys2Proof.Machine.execArm tag params s
  | .clearChannel tag params => Sys2Proof.Machine.execClearChannel tag params s
  | .clearObserved tag params => Sys2Proof.Machine.execClearObserved tag params s
  | .configureChannel tag params => Sys2Proof.Machine.execConfigureChannel tag params s
  | .definePattern tag params => Sys2Proof.Machine.execDefinePattern tag params s
  | .deletePattern tag params => Sys2Proof.Machine.execDeletePattern tag params s
  | .disarm tag params => Sys2Proof.Machine.execDisarm tag params s
  | .erasePlan tag params => Sys2Proof.Machine.execErasePlan tag params s
  | .fetch tag params => Sys2Proof.Machine.execFetch tag params s
  | .identify tag params => Sys2Proof.Machine.execIdentify tag params s
  | .inject tag params => Sys2Proof.Machine.execInject tag params s
  | .pause tag params => Sys2Proof.Machine.execPause tag params s
  | .readChannel tag params => Sys2Proof.Machine.execReadChannel tag params s
  | .readLine tag params => Sys2Proof.Machine.execReadLine tag params s
  | .readObserved tag params => Sys2Proof.Machine.execReadObserved tag params s
  | .readOutput tag params => Sys2Proof.Machine.execReadOutput tag params s
  | .readPattern tag params => Sys2Proof.Machine.execReadPattern tag params s
  | .readReaction tag params => Sys2Proof.Machine.execReadReaction tag params s
  | .rearm tag params => Sys2Proof.Machine.execRearm tag params s
  | .resetRequest tag params => Sys2Proof.Machine.execResetRequest tag params s
  | .resume tag params => Sys2Proof.Machine.execResume tag params s
  | .savePlan tag params => Sys2Proof.Machine.execSavePlan tag params s
  | .setAttention tag params => Sys2Proof.Machine.execSetAttention tag params s
  | .setLine tag params => Sys2Proof.Machine.execSetLine tag params s
  | .setLink tag params => Sys2Proof.Machine.execSetLink tag params s
  | .setOutput tag params => Sys2Proof.Machine.execSetOutput tag params s
  | .setReaction tag params => Sys2Proof.Machine.execSetReaction tag params s
  | .status tag params => Sys2Proof.Machine.execStatus tag params s
  | .rawChange line level => Sys2Proof.Machine.execRawChange line level s
  | .qualificationExpiry line => Sys2Proof.Machine.execQualificationExpiry line s
  | .stepDeadline channel => Sys2Proof.Machine.execStepDeadline channel s
  | .acquireExpiry channel => Sys2Proof.Machine.execAcquireExpiry channel s
  | .frameEndExpiry output => Sys2Proof.Machine.execFrameEndExpiry output s
  | .saveCompletion matched => Sys2Proof.Machine.execSaveCompletion matched s
  | .secondBankInvalidation => Sys2Proof.Machine.execSecondBankInvalidation s
  | .eraseCompletion => Sys2Proof.Machine.execEraseCompletion s
  | .powerOn => Sys2Proof.Machine.execPowerOn s
  | .resetLine => Sys2Proof.Machine.execResetLine s
  | .resetEnd => Sys2Proof.Machine.execResetEnd s
  | .planLoadEnd => Sys2Proof.Machine.execPlanLoadEnd s
  | .byteArrival byte => Sys2Proof.Machine.execByteArrival byte s
  | .framingFault => Sys2Proof.Machine.execFramingFault s
  | .gapExpiry => Sys2Proof.Machine.execGapExpiry s
  | .replySent => Sys2Proof.Machine.execReplySent s
  | .silenceExpiry => Sys2Proof.Machine.execSilenceExpiry s
  | .unknownRequestCode tag code params => Sys2Proof.Machine.execUnknownRequestCode tag code params s

end Sys2Proof.Machine
end

