-- ==== Sys2Proof/WellFormed.lean ====
section
/-! DEFINITION. Which commands can stand for a step of the part. -/

namespace Sys2Proof

/-- A frame that fits the link: LEN is at most 250, so the parameter part is at most 248 bytes (R138, 11.1). -/
def Frame.wf (f : Frame) : Bool := f.params.length ≤ 248

/-- A command is well formed when a frame it carries fits the link, and when UNKNOWN_REQUEST_CODE carries a code that
names none of the 28 requests (R145, R172). Lines, channels and outputs are in range by their types. -/
def Instr.wf (i : Instr) : Bool :=
  (match i.frame? with
   | some f => f.wf
   | none => true) &&
  (match i with
   | .unknownRequestCode _ code _ => !requestCodes.contains code
   | _ => true)

end Sys2Proof
end

