-- ==== Sys2Proof/Safety.lean ====
section
/-! DEFINITION. The words the statements are written in: when the executor takes a frame and what a reply changes, the
generic checks of a request, and the laws of the device. -/

namespace Sys2Proof.Machine

/-! Requests -/

/-- Frame `f` is the oldest in the inbox and the executor may take it; `rest` waits behind it (R143). -/
def State.Takes (s : State) (f : Frame) (rest : List Frame) : Prop :=
  s.device ≠ .reset ∧ s.link.inbox = f :: rest ∧ s.link.replies.length < 4 ∧ ∀ r ∈ s.link.replies, r.thenReset = false

/-- The front frame has left the inbox and reply `r` stands at the end of the reply queue; nothing else has changed
(R143, R144). -/
def State.replied (s : State) (rest : List Frame) (r : Reply) : State :=
  { s with
    link := { s.link with
      inbox := rest
      replies := s.link.replies ++ [r]
      sendStart := if s.link.replies = [] then some s.time else s.link.sendStart } }

/-- A refusal: the status, no data, and no other change (R145, R152). -/
def State.refused (s : State) (rest : List Frame) (tag : Byte) (status : Status) : State :=
  s.replied rest { tag, status, data := [], thenReset := false }

/-- An OK reply with its data (R145, R152). -/
def State.answered (s : State) (rest : List Frame) (tag : Byte) (data : List Byte) : State :=
  s.replied rest { tag, status := .ok, data, thenReset := false }

/-- The front frame has left the inbox; nothing else has changed. The state in which the executor carries a request out. -/
def State.taken (s : State) (rest : List Frame) : State := { s with link := { s.link with inbox := rest } }

/-- The executor may take `f`, and the part is in RUNNING. -/
def State.Ready (s : State) (f : Frame) (rest : List Frame) : Prop := s.Takes f rest ∧ s.device = .running

/-- The LINK state after a good frame: the silence timer is restarted while LINK is WATCHING (R141, R147). -/
def LinkState.restarted (x : LinkState) (due : Time) : LinkState :=
  match x with
  | .watching _ => .watching due
  | x => x

/-- The parameter length of a request, by its code (R172); for DEFINE_PATTERN it follows from the declared count. -/
def parameterLength (code : Byte) (params : List Byte) : Nat :=
  if code ∈ [0x10, 0x11, 0x1F, 0x38, 0x39] then 0
  else if code = 0x28 then 2
  else if code ∈ [0x68, 0x70] then 4
  else if code = 0x60 then 7
  else if code = 0x50 then 11
  else if code = 0x40 then 3 + 7 * (params.getD 2 0).toNat
  else 1

/-- The number in `n` bytes from `i` on, most significant byte first (R170). -/
def field (params : List Byte) (i n : Nat) : Nat :=
  ((params.drop i).take n).foldl (fun acc b => acc * 256 + b.toNat) 0

/-- A step record of DEFINE_PATTERN is in range (R7). -/
def stepInRange (params : List Byte) (i : Nat) : Prop :=
  field params i 3 < field params (i + 3) 3 ∧ field params (i + 6) 1 ≤ 1

/-- Every examined parameter of a request of the right length is in its range (R155, R7, R77, R97, R114, R149, R159). -/
def valuesInRange (code : Byte) (params : List Byte) : Prop :=
  let p := field params
  if code = 0x20 then 1 ≤ p 0 1 ∧ p 0 1 ≤ 8
  else if code = 0x21 then p 0 1 < 8
  else if code = 0x28 then p 0 2 = 0 ∨ 10 ≤ p 0 2 ∧ p 0 2 ≤ 60000
  else if code = 0x30 then p 0 1 ≤ 8
  else if code = 0x40 then
    p 0 1 ≤ 15 ∧ p 1 1 ≤ 1 ∧ p 2 1 % 2 = 0 ∧ 2 ≤ p 2 1 ∧ p 2 1 ≤ 16 ∧ ∀ j, j < p 2 1 → stepInRange params (3 + 7 * j)
  else if code ∈ [0x41, 0x42] then p 0 1 ≤ 15
  else if code = 0x50 then
    p 0 1 ≤ 7 ∧ p 1 1 ≤ 7 ∧ p 2 1 ≤ 15 ∧ 1 ≤ p 3 1 ∧ p 3 1 ≤ 15 ∧ p 5 1 ≤ 1 ∧ (p 5 1 = 1 → 1 ≤ p 6 3) ∧ p 9 1 < 32 ∧
      p 10 1 ≤ 1
  else if code ∈ [0x51, 0x52, 0x53, 0x54, 0x55, 0x56, 0x57, 0x58, 0x59, 0x71] then p 0 1 ≤ 7
  else if code = 0x60 then
    p 0 1 ≤ 31 ∧ p 1 1 ≤ 1 ∧ (p 1 1 = 0 → p 2 1 ≤ 8 ∧ p 3 1 ≤ 5 ∧ p 4 2 ≤ 4097 ∧ p 6 1 ≤ 7)
  else if code = 0x61 then p 0 1 ≤ 31
  else if code = 0x68 then p 0 1 ≤ 5 ∧ p 1 2 ≤ 4097 ∧ p 3 1 ≤ 4
  else if code = 0x69 then p 0 1 ≤ 5
  else if code = 0x70 then p 0 1 ≤ 7 ∧ p 1 2 ≤ 1023 ∧ p 3 1 ≤ 1
  else True

/-! Reset -/

/-- Every block has its reset values, line `l` with the level `pin l` outside (R16, R29, R54, R90, R103, R120, R130, R151).
The raw and filtered levels, which R29 does not give, and the device time in RESET are the model's choices (logs 6, 13). -/
def State.Cleared (t : State) (pin : Fin 8 → Level) : Prop :=
  t.time = 0 ∧ t.planWritten = false ∧ (∀ id : Fin 16, t.patterns[id] = none) ∧
    (∀ l : Fin 8, t.lines[l] =
      { pin := pin l, sampled := false, filter := 20, raw := .low, filtered := .low, runStart := none, runts := 0, edges := 0 }) ∧
    (∀ c : Fin 8, t.channels[c] =
      { config := none, state := .idle, strikes := 0, goodRun := 0, cycles := 0, counts := ⟨0, 0, 0, 0⟩, last := none
        observed := [], closure := none }) ∧
    (∀ i : Fin 32, t.reactions[i] = none) ∧ (∀ o : Fin 6, t.claims[o] = []) ∧
    (∀ o : Fin 6, t.outputs[o] =
      { base := .level .low, rate := 2, applied := .level .low, pending := false, frameStart := none }) ∧
    t.queue = { notices := [], nextSeq := 0, dropped := 0, mask := 0b101 } ∧ t.store.op = .idle ∧
    t.link =
      { receiver := .hunting, errors := 0, inbox := [], busy := 0, replies := [], sendStart := none, source := .off
        timeout := 0 }

/-! The laws of the device -/

/-- A pattern is lawful: an even number of steps from 2 to 16, and max greater than min in every step, within the ranges of
R3 (R1, R3, R4). -/
def Pattern.Lawful (p : Pattern) : Prop :=
  p.steps.length % 2 = 0 ∧ 2 ≤ p.steps.length ∧ p.steps.length ≤ 16 ∧
    ∀ st ∈ p.steps, st.min < st.max ∧ st.max ≤ 16777215

/-- The law of the Pattern Table: every pattern lawful, and at most 96 steps together (R4). -/
def State.PatternLaw (s : State) : Prop :=
  (∀ id : Fin 16, ∀ p ∈ s.patterns[id], p.Lawful) ∧ s.stepsInUse ≤ 96

/-- A configuration's fields are in the ranges of R30. -/
def ChannelConfig.InRange (cfg : ChannelConfig) : Prop :=
  1 ≤ cfg.strikeLimit ∧ cfg.strikeLimit ≤ 15 ∧ cfg.forgive ≤ 255 ∧ ∀ a ∈ cfg.acquire, 1 ≤ a ∧ a ≤ 16777215

/-- The strikes and the good run of a channel with configuration `cfg` (R31, R47, R62). -/
def Channel.CountsLawful (ch : Channel) (cfg : ChannelConfig) : Prop :=
  (if ch.state = .tripped then ch.strikes = cfg.strikeLimit else ch.strikes < cfg.strikeLimit) ∧
    (ch.state = .idle → ch.strikes = 0 ∧ ch.goodRun = 0) ∧
    (if cfg.forgive = 0 then ch.goodRun = 0 else ch.goodRun < cfg.forgive)

/-- The step that a channel holds in TRACKING is one of its pattern's (R6, R49). -/
def ChannelState.StepBelow : ChannelState → Nat → Prop
  | .tracking k _ _, n => k < n
  | _, _ => True

/-- The law of a channel: without a configuration it is IDLE with nothing counted and no table; with one, the configuration is
in range and names a present pattern, the observed table has one entry per step, and the counts are lawful (R5, R30 to R33,
R62). -/
def State.ChannelLawAt (s : State) (c : Fin 8) : Prop :=
  match s.channels[c].config with
  | none =>
    s.channels[c].state = .idle ∧ s.channels[c].strikes = 0 ∧ s.channels[c].goodRun = 0 ∧ s.channels[c].observed = []
  | some cfg =>
    cfg.InRange ∧ s.channels[c].CountsLawful cfg ∧
      match s.patterns[cfg.pattern] with
      | none => False
      | some p =>
        s.channels[c].observed.length = p.steps.length ∧ s.channels[c].state.StepBelow p.steps.length

/-- The law of the channels, for all eight. -/
def State.ChannelLaw (s : State) : Prop := ∀ c : Fin 8, s.ChannelLawAt c

/-- The law of the lines: in RUNNING a qualifying run is held exactly while the raw level differs from the filtered level, and
only with F above 0; outside RUNNING no run is held and no sample taken; a run that begins now begins with the one sample of
this microsecond; F is at most 1023 (R19, R29). -/
def State.LineLaw (s : State) : Prop :=
  ∀ l : Fin 8, s.lines[l].filter ≤ 1023 ∧
    (s.lines[l].runStart.isSome → 0 < s.lines[l].filter) ∧
    (s.device = .running → (s.lines[l].runStart.isSome ↔ s.lines[l].raw ≠ s.lines[l].filtered)) ∧
    (s.device ≠ .running → s.lines[l].runStart = none ∧ s.lines[l].sampled = false) ∧
    (s.lines[l].runStart = some s.time → s.lines[l].sampled = true)

/-- The reaction behind a claim on output `o`: the claim copies the entry at its index, and its source is TRIPPED (R80,
R81). -/
def State.Backed (s : State) (o : Fin 6) (cl : Claim) : Prop :=
  s.reactions[cl.index] = some { source := cl.source, output := o, drive := cl.drive, priority := cl.priority } ∧
    s.sourceTripped cl.source = true

/-- The law of the claim lists: every claim is backed, every entry of a TRIPPED source has its claim in the list of its
output, and no list holds two claims of one entry (R81). -/
def State.ClaimLaw (s : State) : Prop :=
  (∀ o : Fin 6, ∀ cl ∈ s.claims[o], s.Backed o cl) ∧
    (∀ i : Fin 32, ∀ r ∈ s.reactions[i], s.sourceTripped r.source = true → i ∈ s.claims[r.output].map (·.index)) ∧
    ∀ o : Fin 6, (s.claims[o].map (·.index)).Nodup

/-- The law of an output: the applied drive is the effective drive except while the pending flag is set, and except in STARTING
once the plan is written, when the base is only recorded (R104); while the flag is set no claim is held and the applied drive
and the base are both DUTY; a frame is held exactly while the applied drive is DUTY (R92, R100). -/
def State.OutputLawAt (s : State) (o : Fin 6) : Prop :=
  (s.outputs[o].frameStart.isSome ↔ s.outputs[o].applied.isDuty = true) ∧
    if s.outputs[o].pending then
      s.claims[o] = [] ∧ s.outputs[o].applied.isDuty = true ∧ s.outputs[o].base.isDuty = true
    else (s.device = .starting ∧ s.planWritten = true) ∨ s.outputs[o].applied = s.effective o

/-- The law of the outputs, for all six. -/
def State.OutputLaw (s : State) : Prop := ∀ o : Fin 6, s.OutputLawAt o

/-- The number of TRIP notices from a source in a list (R111). -/
def tripCount (ns : List Notice) (src : Source) : Nat := ns.countP fun n => n.isTrip && n.source = .trip src

/-- The admission law of the Notice Queue: at most 39 non-TRIP notices, at most one TRIP notice from a source, every TRIP
notice from a trip source, and so at most 48 notices (R111). -/
def Queue.AdmissionLaw (q : Queue) : Prop :=
  nonTripCount q.notices ≤ 39 ∧ (∀ src : Source, tripCount q.notices src ≤ 1) ∧
    (∀ n ∈ q.notices, n.isTrip = true → n.source ≠ .device) ∧ q.notices.length ≤ 48

/-- The sequence law of the Notice Queue: consecutive numbers in queue order, the newest being next sequence minus one
(R112). -/
def Queue.SequenceLaw (q : Queue) : Prop :=
  q.notices.map (·.sequence) =
    (List.range q.notices.length).map fun i => q.nextSeq - BitVec.ofNat 16 (q.notices.length - i)

/-- A source that could trip has no pending TRIP notice: a channel in SEEKING, TRACKING or PAUSED, and LINK outside TRIPPED
(R68, R71, R148). -/
def State.PendingLaw (s : State) : Prop :=
  (∀ c : Fin 8, s.channels[c].state ≠ .idle → s.channels[c].state ≠ .tripped →
      tripCount s.queue.notices (.channel c) = 0) ∧
    (s.link.source ≠ .tripped → tripCount s.queue.notices .link = 0)

/-- The law of RESET and STARTING: every channel is IDLE with nothing counted, no claim is held, every output applies LEVEL LOW with nothing pending,
the queue is empty, LINK is OFF and no store operation is in flight; and until the load has written the plan every base is
LEVEL LOW and the timeout 0 (R54, R90, R103, R104, R120, R132, R151). -/
def State.QuietLaw (s : State) : Prop :=
  s.device ≠ .running →
    (∀ c : Fin 8, s.channels[c].state = .idle ∧ s.channels[c].strikes = 0 ∧ s.channels[c].goodRun = 0 ∧
        s.channels[c].cycles = 0 ∧ s.channels[c].counts = ⟨0, 0, 0, 0⟩ ∧ s.channels[c].last = none) ∧
      (∀ o : Fin 6, s.claims[o] = [] ∧ s.outputs[o].applied = .level .low ∧ s.outputs[o].pending = false) ∧
      (s.planWritten = false → s.link.timeout = 0 ∧ ∀ o : Fin 6, s.outputs[o].base = .level .low) ∧
      s.queue.notices = [] ∧ s.queue.nextSeq = 0 ∧ s.queue.dropped = 0 ∧ s.link.source = .off ∧ s.store.op = .idle

/-- The law of RESET: the link is ignored and holds nothing, and no plan is written (R132, R151). Device time 0 in RESET is the
model's choice (log 13). -/
def State.ResetLaw (s : State) : Prop :=
  s.device = .reset → s.link = Link.atReset ∧ s.time = 0 ∧ s.planWritten = false

/-- The receiver's record is in the ranges of R137 and R139: a length from 2 to 250, at most LEN bytes with the LEN byte while
in BODY, all of them in CHECK, and at most one check byte. -/
def Receiver.Lawful : Receiver → Prop
  | .hunting => True
  | .length _ => True
  | .body len bytes _ => 2 ≤ len ∧ len ≤ 250 ∧ 1 ≤ bytes.length ∧ bytes.length ≤ len
  | .check len bytes cs _ => 2 ≤ len ∧ len ≤ 250 ∧ bytes.length = len + 1 ∧ cs.length ≤ 1

/-- The law of the Link Interface: at most two frames wait, at most four replies, one is being sent exactly while one waits,
no reply exceeds the largest LEN, the timeout is in range, and LINK watches only with a timeout above 0 (R137, R142, R144,
R147, R173). -/
def State.LinkLaw (s : State) : Prop :=
  s.link.inbox.length ≤ 2 ∧ s.link.replies.length ≤ 4 ∧ (s.link.sendStart.isSome ↔ s.link.replies ≠ []) ∧
    (∀ r ∈ s.link.replies, r.data.length ≤ 179) ∧ s.link.receiver.Lawful ∧
    (s.link.timeout = 0 ∨ 10 ≤ s.link.timeout ∧ s.link.timeout ≤ 60000) ∧
    match s.link.source with
    | .watching _ => s.link.timeout ≠ 0
    | _ => True

/-- The law of the Plan Store: a bank is valid exactly when it holds content whose check value matches; in RUNNING, while a save is in flight its
target is invalid, and the other bank is the bank that was newest at its acceptance, if any was, still valid with the
generation before the one the save writes; while an erase is in flight every bank but the one still to be invalidated is
invalid (R122, R125, R127, R130). -/
def State.StoreLaw (s : State) : Prop :=
  (∀ i : BankId, (s.store.bank i).valid = true ↔
    ∃ c : BankContent, (s.store.bank i).content = some c ∧ c.checkMatches = true) ∧
    match s.store.op with
    | .idle => True
    | .saving target g _ _ =>
      (s.store.bank target).valid = false ∧
        ∀ j, j ≠ target → match (s.store.bank j).generation with
          | some h => g = h + 1 ∧ h ≠ 4294967295
          | none => g = 1
    | .erasing (some i) _ => ∀ j, j ≠ i → (s.store.bank j).valid = false
    | .erasing none _ => s.store.bankA.valid = false ∧ s.store.bankB.valid = false

/-- Device time has not passed an expiry, which lies at most `bound` ahead (R17, R18). -/
def ahead (now due : Time) (bound : Nat) : Prop := elapsed due now ≤ bound

/-- A time, when it is held, lies at most `bound` in the past. -/
def heldWithin (now : Time) (t : Option Time) (bound : Nat) : Prop :=
  match t with
  | some t => elapsed now t ≤ bound
  | none => True

/-- The expiry that a channel holds: in TRACKING step start + max + F, in SEEKING an acquire expiry exactly when the
configuration has a limit; device time has passed neither (R33, R37, R43, R49). -/
def State.DeadlineLawAt (s : State) (c : Fin 8) : Prop :=
  match s.channels[c].state, s.channels[c].config with
  | .tracking k start deadline, some cfg =>
    match s.patterns[cfg.pattern] with
    | none => False
    | some p => match p.steps[k]? with
      | none => False
      | some st =>
        deadline = after start (st.max + s.lines[cfg.line].filter) ∧
          ahead s.time deadline (st.max + s.lines[cfg.line].filter)
  | .seeking expiry, some cfg =>
    match cfg.acquire, expiry with
    | some limit, some due => ahead s.time due limit
    | none, none => True
    | _, _ => False
  | _, _ => True

/-- The law of the channels' expiries, for all eight. -/
def State.DeadlineLaw (s : State) : Prop := ∀ c : Fin 8, s.DeadlineLawAt c

/-- No other expiry has been passed: qualification, frame end, gap and silence (R20, R92, R140, R147). -/
def State.ExpiryLaw (s : State) : Prop :=
  (∀ l : Fin 8, heldWithin s.time s.lines[l].runStart s.lines[l].filter) ∧
    (∀ o : Fin 6, heldWithin s.time s.outputs[o].frameStart (frameLength s.outputs[o].rate)) ∧
    (match s.link.receiver.gap with
      | some due => ahead s.time due 2001
      | none => True) ∧
    match s.link.source with
    | .watching due => ahead s.time due (s.link.timeout * 1000)
    | _ => True

/-- All the laws of the device together. -/
structure State.Lawful (s : State) : Prop where
  patterns : s.PatternLaw
  channels : s.ChannelLaw
  lines : s.LineLaw
  claims : s.ClaimLaw
  outputs : s.OutputLaw
  admission : s.queue.AdmissionLaw
  sequence : s.queue.SequenceLaw
  pending : s.PendingLaw
  quiet : s.QuietLaw
  reset : s.ResetLaw
  link : s.LinkLaw
  store : s.StoreLaw
  deadlines : s.DeadlineLaw
  expiries : s.ExpiryLaw

end Sys2Proof.Machine
end

