-- ==== Sys2Proof/Certificates/Slice0/Obligations.lean ====
section
/-! DEFINITION. The statements for the provers: what each command does, what every step keeps, and what the link, the store and
the channels do over several steps. -/

open Sys2Proof Sys2Proof.Machine

/-! Steps -/

/-- A step with a command at the front of the queue carries out that command on the state with the queue's rest. -/
def Obligations.StepRunsTheFrontCommand : Prop :=
  ∀ (c : Instr) (rest : List Instr) (s : State), s.pending = c :: rest → step s = exec c { s with pending := rest }

/-- With no command waiting the model's step takes an internal event that is due, or lets a microsecond pass outside RESET, or
has the load write the plan (the model's choices, logs 1 and 12; R17, R135). Every expiry that a block holds and device time has
reached is among the events that are due (R18), and so are the sample of a line whose level differs (R19; log 8), the executor's
taking of the oldest frame (R143), the end of a reply (R144), and a save, an erase and a load at their bounds (R126, R128, R135;
the model's choice, log 9). Nothing else is due, and in RESET nothing is (R131). -/
def Obligations.WithNoCommandTimePassesOrAnEventIsTaken : Prop :=
  (∀ s : State, s.pending = [] →
     (s.dueEvents = [] → s.device = .reset → step s = .next s) ∧
     (s.dueEvents = [] → s.device ≠ .reset →
       ∀ tick : State → State,
         (tick = fun u => { u with
           time := u.time + 1
           channels := Vector.ofFn fun c : Fin 8 => { u.channels[c] with closure := none }
           lines := Vector.ofFn fun l : Fin 8 => { u.lines[l] with sampled := false } }) →
         (s.device = .running ∨ s.planWritten = true → step s = .next (tick s)) ∧
         (s.device = .starting → s.planWritten = false →
           step s = .next (if Config.planWritten s.draws then State.writePlan { s with draws := s.draws + 1 }
             else tick { s with draws := s.draws + 1 }))) ∧
     (s.dueEvents ≠ [] → ∃ c ∈ s.dueEvents, step s = exec c { s with draws := s.draws + 1 })) ∧
  (∀ s : State, (s.device = .reset → s.dueEvents = []) ∧ ∀ i ∈ s.dueEvents, s.device ≠ .reset ∧
    ((∃ (l : Fin 8) (t : Time), i = .qualificationExpiry l ∧ s.lines[l].runStart = some t ∧
        reached s.time (after t s.lines[l].filter) = true) ∨
      (∃ (c : Fin 8) (k : Nat) (start due : Time), i = .stepDeadline c ∧ s.channels[c].state = .tracking k start due ∧
        reached s.time due = true) ∨
      (∃ (c : Fin 8) (due : Time), i = .acquireExpiry c ∧ s.channels[c].state = .seeking (some due) ∧
        reached s.time due = true) ∨
      (∃ (o : Fin 6) (t : Time), i = .frameEndExpiry o ∧ s.outputs[o].frameStart = some t ∧
        reached s.time (after t (256 * 2 ^ s.outputs[o].rate.val)) = true) ∨
      (∃ due : Time, i = .gapExpiry ∧ s.link.receiver.gap = some due ∧ reached s.time due = true) ∨
      (∃ due : Time, i = .silenceExpiry ∧ s.link.source = .watching due ∧ reached s.time due = true) ∨
      (∃ l : Fin 8, i = .rawChange l s.lines[l].pin ∧ s.device = .running ∧ s.lines[l].sampled = false ∧
        s.lines[l].pin ≠ s.lines[l].raw) ∨
      (∃ (f : Frame) (rest : List Frame), i = Instr.ofFrame f ∧ s.Takes f rest) ∨
      (∃ (r : Reply) (rest : List Reply) (start : Time), i = .replySent ∧ s.link.replies = r :: rest ∧
        s.link.sendStart = some start ∧
        reached s.time (after start (((r.data.length + 2 + 4) * 3125 + 35) / 36)) = true) ∨
      (∃ (matched : Bool) (target : BankId) (g : Count32) (img : Image) (since : Time), i = .saveCompletion matched ∧
        s.store.op = .saving target g img since ∧ 80000 ≤ elapsed s.time since) ∨
      (∃ (remaining : Option BankId) (since : Time), i = .eraseCompletion ∧ s.store.op = .erasing remaining since ∧
        50000 ≤ elapsed s.time since) ∨
      (i = .planLoadEnd ∧ s.device = .starting ∧ 5000 ≤ s.time.toNat))) ∧
  ∀ s : State, s.device ≠ .reset →
    (∀ (l : Fin 8) (t : Time), s.lines[l].runStart = some t → reached s.time (after t s.lines[l].filter) = true →
      Instr.qualificationExpiry l ∈ s.dueEvents) ∧
    (∀ (c : Fin 8) (k : Nat) (start due : Time), s.channels[c].state = .tracking k start due →
      reached s.time due = true → Instr.stepDeadline c ∈ s.dueEvents) ∧
    (∀ (c : Fin 8) (due : Time), s.channels[c].state = .seeking (some due) → reached s.time due = true →
      Instr.acquireExpiry c ∈ s.dueEvents) ∧
    (∀ (o : Fin 6) (t : Time), s.outputs[o].frameStart = some t →
      reached s.time (after t (256 * 2 ^ s.outputs[o].rate.val)) = true → Instr.frameEndExpiry o ∈ s.dueEvents) ∧
    (∀ due : Time, s.link.receiver.gap = some due → reached s.time due = true → Instr.gapExpiry ∈ s.dueEvents) ∧
    (∀ due : Time, s.link.source = .watching due → reached s.time due = true → Instr.silenceExpiry ∈ s.dueEvents) ∧
    (∀ l : Fin 8, s.device = .running → s.lines[l].sampled = false → s.lines[l].pin ≠ s.lines[l].raw →
      Instr.rawChange l s.lines[l].pin ∈ s.dueEvents) ∧
    (∀ (f : Frame) (rest : List Frame), s.Takes f rest → Instr.ofFrame f ∈ s.dueEvents) ∧
    (∀ (r : Reply) (rest : List Reply) (start : Time), s.link.replies = r :: rest → s.link.sendStart = some start →
      reached s.time (after start (((r.data.length + 2 + 4) * 3125 + 35) / 36)) = true → Instr.replySent ∈ s.dueEvents) ∧
    (∀ (target : BankId) (g : Count32) (img : Image) (since : Time), s.store.op = .saving target g img since →
      80000 ≤ elapsed s.time since → ∃ matched : Bool, Instr.saveCompletion matched ∈ s.dueEvents) ∧
    (∀ (remaining : Option BankId) (since : Time), s.store.op = .erasing remaining since →
      50000 ≤ elapsed s.time since → Instr.eraseCompletion ∈ s.dueEvents) ∧
    (s.device = .starting → 5000 ≤ s.time.toNat → Instr.planLoadEnd ∈ s.dueEvents)

/-- No command stops the part, and no command touches the queue of waiting commands. -/
def Obligations.EveryCommandCompletes : Prop :=
  ∀ (c : Instr) (s : State), ∃ t : State, exec c s = .next t ∧ t.pending = s.pending

/-! Reset -/

/-- The state after reset: STARTING at device time 0 with every block at its reset values, 96 free steps, ATTN released and
every output low (R16, R29, R54, R90, R103, R104, R120, R132, R151). The cause, the empty banks and the low lines are the
model's choices (logs 4, 5, 6), and so are RESETn held as a level (log 15) and the plan not written yet (log 12). -/
def Obligations.ResetState : Prop :=
  State.reset.device = .starting ∧ State.reset.cause = .powerOn ∧ State.reset.resetn = .high ∧
    State.reset.pending = [] ∧ State.reset.Cleared (fun _ => .low) ∧ State.reset.freeSteps = 96 ∧
    State.reset.store.bankA.valid = false ∧ State.reset.store.bankB.valid = false ∧ State.reset.attn = false ∧
    ∀ (o : Fin 6) (x : Nat), State.reset.outLevel o x = .low

/-- The state after reset satisfies every law of the device. -/
def Obligations.LawfulAtReset : Prop := State.reset.Lawful

/-- When a reset begins, every block takes its reset values, the device state is RESET, ATTN is released, and the banks and
the levels outside stay (R16, R29, R54, R90, R103, R120, R130, R131, R151). Its end begins STARTING at device time 0, with each
bank's validity decided from its check value (R17, R122, R132). The model's choices here are: outside RESET that event has no
effect (log 2), the raw and filtered levels in RESET (log 6), device time 0 in RESET (log 13), and what POWER_ON, RESET_LINE and
RESET_END leave on RESETn (log 15). -/
def Obligations.ResetsBeginAndEnd : Prop :=
  (∀ s : State,
     (∃ t : State, exec .powerOn s = .next t ∧ t.device = .reset ∧ t.cause = .powerOn ∧ t.resetn = s.resetn ∧
       t.Cleared (fun l => s.lines[l].pin) ∧ t.store.bankA = s.store.bankA ∧ t.store.bankB = s.store.bankB ∧
       t.attn = false ∧ t.draws = s.draws ∧ t.pending = s.pending) ∧
     (∃ t : State, exec .resetLine s = .next t ∧ t.device = .reset ∧ t.cause = .resetLine ∧ t.resetn = .low ∧
       t.Cleared (fun l => s.lines[l].pin) ∧ t.store.bankA = s.store.bankA ∧ t.store.bankB = s.store.bankB ∧
       t.attn = false ∧ t.draws = s.draws ∧ t.pending = s.pending)) ∧
  ∀ s : State,
    (s.device = .reset → exec .resetEnd s = .next { s with
      device := .starting, resetn := .high, time := 0
      store := { s.store with
        bankA := { s.store.bankA with valid := (s.store.bankA.content.map (·.checkMatches)).getD false }
        bankB := { s.store.bankB with valid := (s.store.bankB.content.map (·.checkMatches)).getD false } } }) ∧
    (s.device ≠ .reset → exec .resetEnd s = .next s)

/-! What every step keeps -/

/-- Every step keeps the law of the Pattern Table and the Step Pool (R4). -/
def Obligations.PatternLawKept : Prop := ∀ s t : State, s.Lawful → step s = .next t → t.PatternLaw

/-- Every step keeps the law of the channels: the named pattern present, strikes below the limit except in TRIPPED, where they
equal it, strikes 0 in IDLE, the good run below forgive cycles, one observed entry per step (R5, R31, R32, R33, R62). A channel
that stays outside IDLE keeps its configuration (R30), and the pattern that it names does not change (R5). -/
def Obligations.ChannelLawKept : Prop :=
  (∀ s t : State, s.Lawful → step s = .next t → t.ChannelLaw) ∧
  ∀ s t : State, s.Lawful → step s = .next t →
    ∀ c : Fin 8, s.channels[c].state ≠ .idle → t.channels[c].state ≠ .idle →
      t.channels[c].config = s.channels[c].config ∧
        ∀ cfg : ChannelConfig, s.channels[c].config = some cfg → t.patterns[cfg.pattern] = s.patterns[cfg.pattern]

/-- Every step keeps the tie between a qualifying run and the levels, a run that begins now being of the one sample of this
microsecond (R19; log 8), and keeps device time from passing an expiry that is held: the step deadline at step start + max + F,
the acquire expiry, the qualification expiry, the frame end, the gap and the silence expiry (R18, R43, R49). -/
def Obligations.LineAndTimingLawsKept : Prop :=
  (∀ s t : State, s.Lawful → step s = .next t → t.LineLaw) ∧
  ∀ s t : State, s.Lawful → step s = .next t → t.DeadlineLaw ∧ t.ExpiryLaw

/-- Every step keeps the law of the claim lists (R81). -/
def Obligations.ClaimLawKept : Prop := ∀ s t : State, s.Lawful → step s = .next t → t.ClaimLaw

/-- Every step keeps the law of the outputs (R92, R100); in STARTING, once the plan is written, the base is only recorded (R104;
the one moment at which the plan is written is the model's choice, log 12). -/
def Obligations.OutputLawKept : Prop := ∀ s t : State, s.Lawful → step s = .next t → t.OutputLaw

/-- Every step keeps the admission law of the Notice Queue, no source that could trip has a pending TRIP notice (R111), and the
sequence numbers of the waiting notices stay consecutive (R112). -/
def Obligations.QueueLawsKept : Prop :=
  (∀ s t : State, s.Lawful → step s = .next t → t.queue.AdmissionLaw ∧ t.PendingLaw) ∧
  ∀ s t : State, s.Lawful → step s = .next t → t.queue.SequenceLaw

/-- Every step keeps RESET and STARTING quiet: no supervision, no claims, outputs low, queue empty, LINK OFF, no store
operation, and until the load has written the plan every base LEVEL LOW and the timeout 0 (R54, R90, R103, R104, R120, R132,
R151). The one moment at which the plan is written is the model's choice (log 12), and so is device time 0 in RESET (log 13). -/
def Obligations.QuietLawKept : Prop := ∀ s t : State, s.Lawful → step s = .next t → t.QuietLaw ∧ t.ResetLaw

/-- Every step keeps the Link Interface within its capacities, and every reply within the largest LEN (R137, R142, R144, R147,
R173). -/
def Obligations.LinkLawKept : Prop := ∀ s t : State, s.Lawful → step s = .next t → t.LinkLaw

/-- Every step keeps the law of the Plan Store: a bank valid exactly when it holds content whose check value matches (R122), the
banks of an operation in flight as R125, R127 and R130 leave them, the bank that was newest at a save's acceptance still valid
with its generation. Any command leaves every bank but a save's target, and the bank that an erase has still to invalidate before
its second invalidation, with its content and its validity; and but for the save's own completion it leaves the target, and a bank
that an erase has invalidated, without content whose check value matches, whatever a reset does to the operation (R130). -/
def Obligations.StoreLawKept : Prop :=
  (∀ s t : State, s.Lawful → step s = .next t → t.StoreLaw) ∧
  ∀ (s t : State) (c : Instr), s.Lawful → exec c s = .next t →
    (∀ (target j : BankId) (g : Count32) (img : Image) (since : Time), s.store.op = .saving target g img since →
      j ≠ target → (s.store.bank j).valid = true → t.store.bank j = s.store.bank j) ∧
    (∀ (second : BankId) (since : Time), s.store.op = .erasing (some second) since →
      c ≠ .secondBankInvalidation → c ≠ .eraseCompletion → (s.store.bank second).valid = true →
      t.store.bank second = s.store.bank second) ∧
    (∀ (target : BankId) (g : Count32) (img : Image) (since : Time), s.store.op = .saving target g img since →
      (∀ matched : Bool, c ≠ .saveCompletion matched) →
      (t.store.bank target).valid = false ∧
        ∀ b : BankContent, (t.store.bank target).content = some b → b.checkMatches = false) ∧
    (∀ (remaining : Option BankId) (since : Time) (j : BankId), s.store.op = .erasing remaining since →
      remaining ≠ some j →
      (t.store.bank j).valid = false ∧
        ∀ b : BankContent, (t.store.bank j).content = some b → b.checkMatches = false)

/-! The link -/

/-- A byte on RXD takes effect according to the receive state (R139); in RESET it is lost (R137). A framing fault or the gap
expiry inside a frame abandons the frame and counts it; a framing fault in HUNTING has no effect (R140). A GAP_EXPIRY that is not
held or not reached has no effect (R18; the model's convention, log 2). -/
def Obligations.TheReceiverFollowsItsState : Prop :=
  (∀ (b : Byte) (s : State),
     (s.device = .reset → exec (.byteArrival b) s = .next s) ∧
     (s.device ≠ .reset →
       (s.link.receiver = .hunting →
         exec (.byteArrival b) s =
           .next (if b = 0xA5 then { s with link := { s.link with receiver := .length (after s.time 2001) } } else s)) ∧
       (∀ gap : Time, s.link.receiver = .length gap →
         exec (.byteArrival b) s =
           .next { s with link :=
             if 2 ≤ b.toNat ∧ b.toNat ≤ 250 then { s.link with receiver := .body b.toNat [b] (after s.time 2001) }
             else { s.link with receiver := .hunting, errors := satSucc s.link.errors } }) ∧
       (∀ (len : Nat) (bytes : List Byte) (gap : Time), s.link.receiver = .body len bytes gap →
         exec (.byteArrival b) s =
           .next { s with link := { s.link with
             receiver :=
               if bytes.length = len then .check len (bytes ++ [b]) [] (after s.time 2001)
               else .body len (bytes ++ [b]) (after s.time 2001) } }) ∧
       (∀ (len : Nat) (bytes : List Byte) (gap : Time), s.link.receiver = .check len bytes [] gap →
         exec (.byteArrival b) s =
           .next { s with link := { s.link with receiver := .check len bytes [b] (after s.time 2001) } }))) ∧
  ∀ s : State,
    (s.device ≠ .reset → s.link.receiver ≠ .hunting →
      exec .framingFault s =
        .next { s with link := { s.link with receiver := .hunting, errors := satSucc s.link.errors } }) ∧
    (s.link.receiver = .hunting → exec .framingFault s = .next s ∧ exec .gapExpiry s = .next s) ∧
    (∀ due : Time, s.link.receiver.gap = some due →
      (reached s.time due = true →
        exec .gapExpiry s =
          .next { s with link := { s.link with receiver := .hunting, errors := satSucc s.link.errors } }) ∧
      (reached s.time due = false → exec .gapExpiry s = .next s))

/-- The second check byte completes the frame: with a different CRC it is discarded and counted; with an equal one it restarts
the silence timer in WATCHING and joins the inbox, or finds it full and is counted and answered BUSY when the reply queue has
a place (R141, R142). -/
def Obligations.TheSecondCheckByteCompletesTheFrame : Prop :=
  ∀ (s : State) (len : Nat) (n tag code hi lo : Byte) (params : List Byte) (gap : Time),
    s.device ≠ .reset → s.link.receiver = .check len (n :: tag :: code :: params) [hi] gap →
    ((crc16 (n :: tag :: code :: params)).toNat ≠ hi.toNat * 256 + lo.toNat →
      exec (.byteArrival lo) s =
        .next { s with link := { s.link with receiver := .hunting, errors := satSucc s.link.errors } }) ∧
    ((crc16 (n :: tag :: code :: params)).toNat = hi.toNat * 256 + lo.toNat →
      (s.link.inbox.length < 2 →
        exec (.byteArrival lo) s = .next { s with link := { s.link with
          receiver := .hunting
          source := s.link.source.restarted (after s.time (s.link.timeout * 1000))
          inbox := s.link.inbox ++ [⟨tag, code, params⟩] } }) ∧
      (2 ≤ s.link.inbox.length → s.link.replies.length < 4 →
        exec (.byteArrival lo) s = .next { s with link := { s.link with
          receiver := .hunting
          source := s.link.source.restarted (after s.time (s.link.timeout * 1000))
          busy := satSucc s.link.busy
          replies := s.link.replies ++ [{ tag, status := .busy, data := [], thenReset := false }]
          sendStart := if s.link.replies = [] then some s.time else s.link.sendStart } }) ∧
      (2 ≤ s.link.inbox.length → 4 ≤ s.link.replies.length →
        exec (.byteArrival lo) s = .next { s with link := { s.link with
          receiver := .hunting
          source := s.link.source.restarted (after s.time (s.link.timeout * 1000))
          busy := satSucc s.link.busy
          errors := satSucc s.link.errors } }))

/-- The bytes of any request frame, arriving one after another at a receiver that hunts, become exactly that frame in the inbox,
and restart the silence timer of a watching LINK (R138 to R142). All of them arrive at one device time: time stands while
commands wait (the model's choice, log 1), and the ten bit times of a byte on the line (R137) are not enforced (the model's
choice, log 23). -/
def Obligations.ReceivingTheBytesOfAFrameYieldsTheFrame : Prop :=
  ∀ (f : Frame) (s : State), f.wf = true → s.device ≠ .reset → s.link.receiver = .hunting → s.link.inbox.length < 2 →
    s.pending = (requestBytes f).map Instr.byteArrival →
    (core.run (requestBytes f).length s : Host.Outcome State Fault Refusal) =
      .next { s with
        pending := []
        link := { s.link with
          source := s.link.source.restarted (after s.time (s.link.timeout * 1000))
          inbox := s.link.inbox ++ [f] } }

/-- The forms on the link. A frame is SYNC, LEN, body and the CRC high byte first, and the CRC of the nine check bytes is 29B1H
(R138). A notice record is eighteen bytes: sequence, time, source and kind, and the ten detail bytes of each kind (R174). The
status bytes, a channel set, the weights of the report mask, the drives, the levels, yes or no, the sources, and the fields of
two, three and four bytes, the most significant first (R170); the ten bytes of a configuration (R171). -/
def Obligations.FrameAndRecordForm : Prop :=
  crc16 [0x31, 0x32, 0x33, 0x34, 0x35, 0x36, 0x37, 0x38, 0x39] = 0x29B1 ∧
    (∀ body : List Byte, body.length ≤ 250 → ∃ hi lo : Byte,
      frameBytes body = [0xA5, byte body.length] ++ body ++ [hi, lo] ∧
        hi.toNat * 256 + lo.toNat = (crc16 (byte body.length :: body)).toNat) ∧
    (∀ n : Notice, n.bytes.length = 18 ∧
      n.bytes.take 8 = be16 n.sequence.toNat ++ be32 n.time.toNat ++
        [match n.source with | .trip (.channel c) => byte c | .trip .link => 8 | .device => 9,
         match n.body with
          | .deviation _ _ _ _ => 1 | .tripChannel _ _ _ _ _ => 2 | .tripLink _ _ => 2 | .mark _ _ _ => 3
          | .started _ _ _ _ => 4 | .store _ _ _ => 5] ∧
      n.bytes.drop 8 =
        match n.body with
        | .deviation kind step measured strikes =>
          [match kind with | .early => (1 : Byte) | .late => 2 | .noSignal => 3 | .injected => 4] ++
            (match step with | some k => [1, byte k] | none => [0, 0]) ++
            (match measured with | some m => 1 :: be24 m | none => [0, 0, 0, 0]) ++ [byte strikes, 0, 0]
        | .tripChannel kind step measured strikes claims =>
          [match kind with | .early => (1 : Byte) | .late => 2 | .noSignal => 3 | .injected => 4] ++
            (match step with | some k => [1, byte k] | none => [0, 0]) ++
            (match measured with | some m => 1 :: be24 m | none => [0, 0, 0, 0]) ++ [byte strikes, byte claims, 0]
        | .tripLink limit claims => be16 limit ++ [byte claims, 0, 0, 0, 0, 0, 0, 0]
        | .mark step measured cycles => [byte step] ++ be24 measured ++ be32 cycles.toNat ++ [0, 0]
        | .started cause outcome generation armed =>
          [match cause with | .powerOn => (1 : Byte) | .resetLine => 2 | .resetRequest => 3,
           match outcome with | .none => 0 | .bankA => 1 | .bankB => 2 | .rejected => 3] ++
            (match generation with | some g => 1 :: be32 g.toNat | none => [0, 0, 0, 0, 0]) ++ [byte armed, 0, 0]
        | .store operation done generation =>
          [match operation with | .save => (1 : Byte) | .erase => 2, if done then 0 else 1] ++
            (match generation with | some g => 1 :: be32 g.toNat | none => [0, 0, 0, 0, 0]) ++ [0, 0, 0]) ∧
    [Status.ok, .busy, .unknownRequest, .badLength, .badValue, .notReady, .wrongState, .notConfigured, .noSuchPattern, .inUse,
      .poolFull, .sourceTripped, .noticePending, .storeBusy, .storeExhausted].map Status.toByte = (List.range 15).map byte ∧
    (∀ (f : Fin 8 → Bool) (c : Fin 8), (channelSet f).getLsbD c = f c) ∧
    (∀ (mask : BitVec 5) (kind : DeviationKind),
      (reports mask kind = true ↔
        mask &&& (match kind with | .early => 0x01 | .late => 0x02 | .noSignal => 0x04 | .injected => 0x08) ≠ 0) ∧
      (reportsMark mask = true ↔ mask &&& 0x10 ≠ 0)) ∧
    ((∀ d : BitVec 12, (Drive.duty d).code = d.toNat) ∧ (Drive.level .low).code = 0x1000 ∧
      (Drive.level .high).code = 0x1001 ∧ levelByte .low = 0x00 ∧ levelByte .high = 0x01 ∧ yesNo false = 0x00 ∧
      yesNo true = 0x01 ∧ (∀ c : Fin 8, (Source.channel c).toByte.toNat = c.val) ∧ Source.link.toByte = 0x08) ∧
    ((∀ n : Nat, n < 65536 → ∃ a b : Byte, be16 n = [a, b] ∧ n = a.toNat * 256 + b.toNat) ∧
      (∀ n : Nat, n < 16777216 →
        ∃ a b c : Byte, be24 n = [a, b, c] ∧ n = (a.toNat * 256 + b.toNat) * 256 + c.toNat) ∧
      (∀ n : Nat, n < 4294967296 → ∃ a b c d : Byte, be32 n = [a, b, c, d] ∧
        n = ((a.toNat * 256 + b.toNat) * 256 + c.toNat) * 256 + d.toNat)) ∧
    ∀ cfg : ChannelConfig,
      cfg.bytes = [byte cfg.line, byte cfg.pattern, byte cfg.strikeLimit, byte cfg.forgive] ++
        (match cfg.acquire with | some n => 1 :: be24 n | none => [0, 0, 0, 0]) ++
        [byte cfg.report.toNat, if cfg.bootArmed then 1 else 0]

/-- The front reply, of LEN two more than its data, is removed when its LEN + 4 bytes have been sent, at 3,125/36 µs a byte
rounded up, and the next one begins; the end of an accepted RESET's reply begins and ends a RESET_REQUEST reset (R144, R146,
R131). Before that time REPLY_SENT has no effect (the model's convention, log 2). The bytes sent by a device time are those of its
frame whose ends have been reached, and TXD is high while the queue is empty (R144). A byte on TXD is low in its first bit time,
has its data bits in the next eight, least significant first, and is high in its tenth (the model's presumption, log 14). The raw
and filtered levels after a reset are the model's choice (log 6). -/
def Obligations.RepliesAreSentInOrder : Prop :=
  (∀ (s : State) (r : Reply) (rest : List Reply) (start : Time),
     s.link.replies = r :: rest → s.link.sendStart = some start →
     (reached s.time (after start (((r.data.length + 2 + 4) * 3125 + 35) / 36)) = false → exec .replySent s = .next s) ∧
     (reached s.time (after start (((r.data.length + 2 + 4) * 3125 + 35) / 36)) = true →
       (r.thenReset = false →
         exec .replySent s = .next { s with link := { s.link with
           replies := rest, sendStart := if rest = [] then none else some s.time } }) ∧
       (r.thenReset = true → ∃ t : State, exec .replySent s = .next t ∧ t.device = .starting ∧ t.cause = .resetRequest ∧
         t.resetn = s.resetn ∧ t.Cleared (fun l => s.lines[l].pin) ∧
         t.store.bankA.content = s.store.bankA.content ∧ t.store.bankB.content = s.store.bankB.content ∧
         t.store.bankA.valid = (s.store.bankA.content.map (·.checkMatches)).getD false ∧
         t.store.bankB.valid = (s.store.bankB.content.map (·.checkMatches)).getD false ∧
         t.draws = s.draws ∧ t.pending = s.pending))) ∧
  ∀ (k : Link) (now : Time),
    (k.replies = [] → k.sentBytes now = [] ∧ k.txdLevel now = .high) ∧
    ∀ (r : Reply) (rest : List Reply) (start : Time), k.replies = r :: rest → k.sendStart = some start →
      r.bytes = frameBytes (r.tag :: r.status.toByte :: r.data) ∧
      (∃ n : Nat, k.sentBytes now = r.bytes.take n ∧ n ≤ r.bytes.length ∧
        ∀ j : Nat, j < r.bytes.length → (j < n ↔ ((j + 1) * 3125 + 35) / 36 ≤ elapsed now start)) ∧
      ∀ bit : Nat, bit = elapsed now start * 360 / 3125 →
        (10 * r.bytes.length ≤ bit → k.txdLevel now = .high) ∧
        (∀ (j : Nat) (b : Byte), r.bytes[j]? = some b →
          (bit = 10 * j → k.txdLevel now = .low) ∧ (bit = 10 * j + 9 → k.txdLevel now = .high) ∧
          ∀ i : Nat, i < 8 → bit = 10 * j + 1 + i → k.txdLevel now = if b.getLsbD i then .high else .low)

/-- The silence expiry trips LINK in WATCHING: TRIPPED, then the claims, then the TRIP notice with the limit and the number of
claims (R148). An expiry that has not been reached is not delivered (R18; the model's convention, log 2). -/
def Obligations.SilenceTripsLink : Prop :=
  ∀ (s : State) (due : Time), s.link.source = .watching due →
    (reached s.time due = false → exec .silenceExpiry s = .next s) ∧
    (reached s.time due = true → ∃ t : State, exec .silenceExpiry s = .next t ∧
      t = { { s with link := { s.link with source := .tripped } }.makeClaims .link with queue := t.queue } ∧
      t.queue = { s.queue with
        notices := s.queue.notices ++
          [{ sequence := s.queue.nextSeq, time := s.time, source := .trip .link
             body := .tripLink s.link.timeout
              ((List.finRange 32).countP fun i => s.reactions[i].any fun r => r.source = .link) }]
        nextSeq := s.queue.nextSeq + 1 })

/-- A frame in the inbox waits while the reply queue is full or an accepted RESET awaits the end of its reply, and while it is not
the oldest (R143). A request handed to the model whole, whose frame is not in the inbox, first becomes good as R141 and R142 state
(the model's convention, log 3): it joins an inbox with room, and a full inbox has it counted and answered BUSY when the reply
queue has a place. In RESET the link is ignored, and a request has no effect (R132). -/
def Obligations.ARequestWaitsOrBecomesGoodFirst : Prop :=
  (∀ (f : Frame) (s : State), f ∈ s.link.inbox →
     4 ≤ s.link.replies.length ∨ (∃ r ∈ s.link.replies, r.thenReset = true) →
     exec (Instr.ofFrame f) s = .next s) ∧
  (∀ (f g : Frame) (rest : List Frame) (s : State), s.link.inbox = g :: rest → f ∈ rest → f ≠ g →
     exec (Instr.ofFrame f) s = .next s) ∧
  (∀ (f : Frame) (s : State), s.device = .reset → exec (Instr.ofFrame f) s = .next s) ∧
  (∀ (f : Frame) (s : State), f ∉ s.link.inbox → s.device ≠ .reset → s.link.inbox.length < 2 →
     exec (Instr.ofFrame f) s =
       exec (Instr.ofFrame f) { s with link := { s.link with
         source := s.link.source.restarted (after s.time (s.link.timeout * 1000))
         inbox := s.link.inbox ++ [f] } }) ∧
  ∀ (f : Frame) (s : State), f ∉ s.link.inbox → s.device ≠ .reset → 2 ≤ s.link.inbox.length →
    (s.link.replies.length < 4 →
      exec (Instr.ofFrame f) s = .next { s with link := { s.link with
        source := s.link.source.restarted (after s.time (s.link.timeout * 1000))
        busy := satSucc s.link.busy
        replies := s.link.replies ++ [{ tag := f.tag, status := .busy, data := [], thenReset := false }]
        sendStart := if s.link.replies = [] then some s.time else s.link.sendStart } }) ∧
    (4 ≤ s.link.replies.length →
      exec (Instr.ofFrame f) s = .next { s with link := { s.link with
        source := s.link.source.restarted (after s.time (s.link.timeout * 1000))
        busy := satSucc s.link.busy
        errors := satSucc s.link.errors } })

/-- The generic checks and the device-state check, for every frame the executor takes, in the order of R145: an unknown code,
then a wrong length, then a value out of range, then STARTING for every request but IDENTIFY and STATUS. A refusal changes
nothing but the link, and its reply carries the TAG, the status and no data. -/
def Obligations.GenericChecksInOrder : Prop :=
  ∀ (f : Frame) (s : State) (rest : List Frame), s.Takes f rest →
    (f.code ∉ requestCodes → exec (Instr.ofFrame f) s = .next (s.refused rest f.tag .unknownRequest)) ∧
    (f.code ∈ requestCodes →
      (f.params.length ≠ parameterLength f.code f.params →
        exec (Instr.ofFrame f) s = .next (s.refused rest f.tag .badLength)) ∧
      (f.params.length = parameterLength f.code f.params →
        (¬ valuesInRange f.code f.params → exec (Instr.ofFrame f) s = .next (s.refused rest f.tag .badValue)) ∧
        (valuesInRange f.code f.params → s.device = .starting → f.code ≠ 0x10 → f.code ≠ 0x11 →
          exec (Instr.ofFrame f) s = .next (s.refused rest f.tag .notReady))))

/-- A frame and the command it names carry the same TAG, code and parameters: the command that the frame of a well-formed
command names is that command, and the frame of the command that a frame names is that frame (R172). -/
def Obligations.FramesAndCommandsAgree : Prop :=
  (∀ (i : Instr) (f : Frame), i.wf = true → i.frame? = some f → Instr.ofFrame f = i) ∧
    ∀ f : Frame, (Instr.ofFrame f).frame? = some f ∧ (f.wf = true → (Instr.ofFrame f).wf = true)

/-! Requests of the device, the notices and the link -/

/-- IDENTIFY answers the fixed texts and the fourteen capacities and STATUS the fields of R168, in STARTING as in RUNNING, and
neither changes anything else; RESET in RUNNING is answered OK, and nothing else changes at its acceptance (R146, R163, R165,
R168, R173). -/
def Obligations.IdentifyStatusAndReset : Prop :=
  ∀ (s : State) (tag : Byte) (rest : List Frame),
    (s.Takes ⟨tag, 0x10, []⟩ rest →
      exec (.identify tag []) s = .next (s.answered rest tag
        [0x53, 0x75, 0x74, 0x72, 0x65, 0x6E, 0x65, 0x00, 0x53, 0x55, 0x38, 0x36, 0x42,
          8, 8, 6, 16, 96, 16, 32, 9, 48, 39, 8, 2, 4, 250])) ∧
    (s.Takes ⟨tag, 0x11, []⟩ rest →
      exec (.status tag []) s = .next (s.answered rest tag
        ([if s.device = .running then (2 : Byte) else 1] ++ be32 s.time.toNat ++ [byte s.queue.notices.length] ++
          be16 s.queue.dropped.toNat ++
          [match s.link.source with | .off => (0 : Byte) | .watching _ => 1 | .tripped => 2] ++ be16 s.link.timeout ++
          be16 s.link.errors.toNat ++ be16 s.link.busy.toNat ++
          [match s.store.op with | .idle => (0 : Byte) | .saving _ _ _ _ => 1 | .erasing _ _ => 2] ++
          (match s.store.bankA.generation with | some g => 1 :: be32 g.toNat | none => [0, 0, 0, 0, 0]) ++
          (match s.store.bankB.generation with | some g => 1 :: be32 g.toNat | none => [0, 0, 0, 0, 0])))) ∧
    (s.Ready ⟨tag, 0x1F, []⟩ rest →
      exec (.resetRequest tag []) s =
        .next (s.replied rest { tag, status := .ok, data := [], thenReset := true }))

/-- FETCH removes up to n notices from the front of the list and answers their records, the number left and the dropped count,
which it clears (R114, R175). -/
def Obligations.FetchRemovesTheOldestNotices : Prop :=
  ∀ (s : State) (tag : Byte) (n : Nat) (rest : List Frame), 1 ≤ n → n ≤ 8 → s.Ready ⟨tag, 0x20, [byte n]⟩ rest →
    exec (.fetch tag [byte n]) s =
      .next { s.answered rest tag
          ([byte (min n s.queue.notices.length), byte (s.queue.notices.length - n)] ++ be16 s.queue.dropped.toNat ++
            (s.queue.notices.take n).flatMap Notice.bytes) with
        queue := { s.queue with notices := s.queue.notices.drop n, dropped := 0 } }

/-- ATTN is asserted while the part is in RUNNING and the list holds a TRIP, a STARTED, or a notice of a kind in the attention
mask, and released in every other case (R119); SET_ATTENTION replaces the mask and answers it with ATTN as it stands afterwards,
and the list is not touched (R118). -/
def Obligations.AttnFollowsTheListAndTheMaskIsReplaced : Prop :=
  (∀ s : State, s.attn = true ↔
     s.device = .running ∧ ∃ n ∈ s.queue.notices, n.isTrip = true ∨
       (∃ cause outcome generation armed, n.body = .started cause outcome generation armed) ∨
       ((∃ kind step measured strikes, n.body = .deviation kind step measured strikes) ∧
         s.queue.mask.getLsbD 0 = true) ∨
       ((∃ step measured cycles, n.body = .mark step measured cycles) ∧ s.queue.mask.getLsbD 1 = true) ∨
       ((∃ operation done generation, n.body = .store operation done generation) ∧ s.queue.mask.getLsbD 2 = true)) ∧
  ∀ (s : State) (tag : Byte) (m : BitVec 3) (rest : List Frame), s.Ready ⟨tag, 0x21, [byte m.toNat]⟩ rest →
    exec (.setAttention tag [byte m.toNat]) s =
      .next { s.answered rest tag
          [byte m.toNat, if ({ s with queue := { s.queue with mask := m } } : State).attn then 1 else 0] with
        queue := { s.queue with mask := m } }

/-- SET_LINK records t; LINK in TRIPPED stays so, and otherwise goes OFF for t = 0 or watches from now for t milliseconds
(R149). -/
def Obligations.SetLinkRecordsTheTimeout : Prop :=
  ∀ (s : State) (tag : Byte) (t : Nat) (rest : List Frame) (after' : LinkState),
    t = 0 ∨ 10 ≤ t ∧ t ≤ 60000 → s.Ready ⟨tag, 0x28, be16 t⟩ rest →
    after' = (if s.link.source = .tripped then .tripped else if t = 0 then .off
      else .watching (after s.time (t * 1000))) →
    exec (.setLink tag (be16 t)) s =
      .next { s with link := { (s.answered rest tag
          ((match after' with | .off => (0 : Byte) | .watching _ => 1 | .tripped => 2) :: be16 t)).link with
        source := after', timeout := t } }

/-- REARM, for either kind of source: refused with WRONG_STATE outside TRIPPED and with NOTICE_PENDING while the source's TRIP
notice waits; otherwise the claims are released and counted, and a channel seeks with strikes and good run 0, LINK watches from
now, or is OFF with a timeout of 0 (R70, R72, R150, R164). -/
def Obligations.RearmReturnsATrippedSource : Prop :=
  ∀ (s : State) (tag : Byte) (src : Source) (rest : List Frame), s.Ready ⟨tag, 0x30, [src.toByte]⟩ rest →
    (s.sourceTripped src = false →
      exec (.rearm tag [src.toByte]) s = .next (s.refused rest tag .wrongState)) ∧
    (s.sourceTripped src = true →
      (0 < tripCount s.queue.notices src →
        exec (.rearm tag [src.toByte]) s = .next (s.refused rest tag .noticePending)) ∧
      (tripCount s.queue.notices src = 0 → ∃ t : State, exec (.rearm tag [src.toByte]) s = .next t ∧
        (∀ o : Fin 6, t.claims[o] = s.claims[o].filter fun cl => cl.source ≠ src) ∧
        t.outputs = (s.releaseClaims src).outputs ∧
        (∀ c : Fin 8, t.channels[c] =
          if src = .channel c then
            { s.channels[c] with
              strikes := 0, goodRun := 0
              state := .seeking ((s.channels[c].config.bind (·.acquire)).map (after s.time)) }
          else s.channels[c]) ∧
        t.link = { (s.answered rest tag
            [src.toByte, byte ((s.claims.toList.map fun l => l.countP fun cl => cl.source = src).sum)]).link with
          source :=
            if src = .link then
              if s.link.timeout = 0 then .off else .watching (after s.time (s.link.timeout * 1000))
            else s.link.source } ∧
        t = { s with claims := t.claims, outputs := t.outputs, channels := t.channels, link := t.link }))

/-! Requests of the store -/

/-- The newest bank is the valid bank of the larger generation, bank A of two equal ones; the other bank is the bank that is not
the newest, and A when neither is valid (R124). -/
def Obligations.NewestAndOtherBank : Prop :=
  ∀ st : Store,
    (st.bankA.generation = none → st.bankB.generation = none →
      st.newestGeneration = none ∧ st.other = .a ∧ st.second = .b) ∧
    (∀ g : Count32, st.bankA.generation = some g → st.bankB.generation = none →
      st.newestGeneration = some g ∧ st.other = .b ∧ st.second = .a) ∧
    (∀ g : Count32, st.bankA.generation = none → st.bankB.generation = some g →
      st.newestGeneration = some g ∧ st.other = .a ∧ st.second = .b) ∧
    (∀ g h : Count32, st.bankA.generation = some g → st.bankB.generation = some h →
      (h.toNat ≤ g.toNat → st.newestGeneration = some g ∧ st.other = .b ∧ st.second = .a) ∧
      (g.toNat < h.toNat → st.newestGeneration = some h ∧ st.other = .a ∧ st.second = .b))

/-- SAVE_PLAN: refused with STORE_BUSY outside IDLE and with STORE_EXHAUSTED at the last generation; otherwise the snapshot is
taken, the other bank invalidated and SAVING begun with the next generation. ERASE_PLAN: refused with STORE_BUSY outside IDLE;
otherwise the other bank is invalidated and ERASING holds the newest bank (R125, R127, R166). -/
def Obligations.SaveAndErase : Prop :=
  ∀ (s : State) (tag : Byte) (rest : List Frame),
    (s.Ready ⟨tag, 0x38, []⟩ rest →
      (s.store.op ≠ .idle → exec (.savePlan tag []) s = .next (s.refused rest tag .storeBusy)) ∧
      (s.store.op = .idle → s.store.newestGeneration = some 4294967295 →
        exec (.savePlan tag []) s = .next (s.refused rest tag .storeExhausted)) ∧
      (s.store.op = .idle → s.store.newestGeneration ≠ some 4294967295 →
        ∀ g : Count32, g = (match s.store.newestGeneration with | some g => g + 1 | none => 1) →
        exec (.savePlan tag []) s =
          .next { s.answered rest tag ((match s.store.other with | .a => (0 : Byte) | .b => 1) :: be32 g.toNat) with
            store := { s.store.putBank s.store.other { content := none, valid := false } with
              op := .saving s.store.other g s.snapshot s.time } })) ∧
    (s.Ready ⟨tag, 0x39, []⟩ rest →
      (s.store.op ≠ .idle → exec (.erasePlan tag []) s = .next (s.refused rest tag .storeBusy)) ∧
      (s.store.op = .idle →
        exec (.erasePlan tag []) s =
          .next { s.answered rest tag
              [match s.store.other with | .a => 0 | .b => 1, match s.store.second with | .a => 0 | .b => 1] with
            store := { s.store.putBank s.store.other { content := none, valid := false } with
              op := .erasing (some s.store.second) s.time } }))

/-- A save completes after its acceptance: with a matching read-back the target becomes valid with the snapshot and the
generation, with a mismatch it stays invalid; the store is IDLE and the STORE notice is offered (R126). An erase invalidates
its second bank after its acceptance, and completes with both banks invalid, the store IDLE and the STORE notice offered
(R128). At the device time of the acceptance, with no operation in flight, with an operation of the other kind, and after the
second invalidation for another one, the model gives the event no effect (logs 2 and 9). -/
def Obligations.StoreOperationsComplete : Prop :=
  ∀ s : State,
    (∀ (target : BankId) (g : Count32) (img : Image) (since : Time) (matched : Bool),
      s.store.op = .saving target g img since →
      (s.time ≠ since →
        exec (.saveCompletion matched) s = .next { s with
          store := { s.store.putBank target
              (if matched then { content := some { image := img, generation := g, checkMatches := true }, valid := true }
              else { content := none, valid := false }) with op := .idle }
          queue := s.queue.offer s.time .device (.store .save matched (if matched then some g else none)) }) ∧
      (s.time = since → exec (.saveCompletion matched) s = .next s) ∧
      exec .secondBankInvalidation s = .next s ∧ exec .eraseCompletion s = .next s) ∧
    (∀ (second : BankId) (since : Time), s.store.op = .erasing (some second) since →
      (s.time ≠ since →
        exec .secondBankInvalidation s = .next { s with
          store := { s.store.putBank second { content := none, valid := false } with op := .erasing none since } }) ∧
      (s.time = since → exec .secondBankInvalidation s = .next s)) ∧
    (∀ since : Time, s.store.op = .erasing none since → exec .secondBankInvalidation s = .next s) ∧
    (∀ (remaining : Option BankId) (since : Time), s.store.op = .erasing remaining since →
      (s.time ≠ since →
        exec .eraseCompletion s = .next { s with
          store :=
            { bankA := { content := none, valid := false }, bankB := { content := none, valid := false }, op := .idle }
          queue := s.queue.offer s.time .device (.store .erase true none) }) ∧
      (s.time = since → exec .eraseCompletion s = .next s) ∧
      ∀ matched : Bool, exec (.saveCompletion matched) s = .next s) ∧
    (s.store.op = .idle → ∀ matched : Bool,
      exec (.saveCompletion matched) s = .next s ∧ exec .secondBankInvalidation s = .next s ∧
        exec .eraseCompletion s = .next s)

/-- The image that a save takes of a lawful part passes every check of the load, and loading it gives back every item of the
plan (R123, R134, R135). -/
def Obligations.ASavedPlanLoadsBack : Prop :=
  ∀ s r : State, s.Lawful →
    s.snapshot.accepted = true ∧
    (r.loadPlan s.snapshot).patterns = s.patterns ∧
    (∀ c : Fin 8, (r.loadPlan s.snapshot).channels[c].config = s.channels[c].config) ∧
    (r.loadPlan s.snapshot).reactions = s.reactions ∧
    (∀ o : Fin 6, (r.loadPlan s.snapshot).outputs[o].base = s.outputs[o].base ∧
      (r.loadPlan s.snapshot).outputs[o].rate = s.outputs[o].rate) ∧
    (∀ l : Fin 8, (r.loadPlan s.snapshot).lines[l].filter = s.lines[l].filter) ∧
    (r.loadPlan s.snapshot).link.timeout = s.link.timeout ∧
    (r.loadPlan s.snapshot).queue.mask = s.queue.mask

/-- The load ends STARTING: the plan is that of the newest valid bank when its image passes the checks, and the defaults
otherwise, written now or before in STARTING (log 12); every block takes up its running state, the STARTED notice is the one
notice, and the boot-armed channels seek (R29, R54, R105, R121, R133 to R136, R151). -/
def Obligations.TheLoadEndsInRunning : Prop :=
  ∀ (s : State) (img : Image) (outcome : PlanOutcome) (g : Option Count32), s.Lawful → s.device = .starting →
    ((s.store.newest = none ∧ img = Image.defaults ∧ outcome = .none ∧ g = none) ∨
      ∃ (i : BankId) (c : BankContent), s.store.newest = some i ∧ (s.store.bank i).content = some c ∧
        if c.image.accepted then
          img = c.image ∧ outcome = (match i with | .a => .bankA | .b => .bankB) ∧ g = some c.generation
        else img = Image.defaults ∧ outcome = .rejected ∧ g = none) →
    ∃ t : State, exec .planLoadEnd s = .next t ∧ t.device = .running ∧ t.cause = s.cause ∧ t.resetn = s.resetn ∧
      t.time = s.time ∧ t.planWritten = true ∧ t.store = s.store ∧ t.draws = s.draws ∧ t.pending = s.pending ∧
      t.patterns = img.table ∧
      (∀ c : Fin 8, t.channels[c].config = img.channels[c].bind ImageConfig.toConfig ∧
        t.channels[c].strikes = 0 ∧ t.channels[c].goodRun = 0 ∧ t.channels[c].cycles = 0 ∧
        t.channels[c].counts = ⟨0, 0, 0, 0⟩ ∧ t.channels[c].last = none ∧ t.channels[c].closure = none ∧
        t.channels[c].observed =
          (match t.channels[c].config with
          | some cfg => match img.table[cfg.pattern] with
            | some p => List.replicate p.steps.length { count := 0, shortest := none, longest := none }
            | none => []
          | none => []) ∧
        t.channels[c].state =
          match t.channels[c].config with
          | some cfg => if cfg.bootArmed then .seeking (cfg.acquire.map (after s.time)) else .idle
          | none => .idle) ∧
      (∀ i : Fin 32, t.reactions[i] = img.reactions[i].bind ImageReaction.toReaction) ∧
      (∀ o : Fin 6, t.claims[o] = [] ∧ t.outputs[o].applied = t.outputs[o].base ∧ t.outputs[o].pending = false ∧
        driveOfNat img.outputs[o].base = some t.outputs[o].base ∧ t.outputs[o].rate.val = img.outputs[o].rate ∧
        t.outputs[o].frameStart = if t.outputs[o].base.isDuty then some s.time else none) ∧
      (∀ l : Fin 8, t.lines[l] =
        { pin := s.lines[l].pin, sampled := true, filter := img.filters[l], raw := s.lines[l].pin
          filtered := s.lines[l].pin, runStart := none, runts := 0, edges := 0 }) ∧
      t.link = { s.link with
        timeout := img.timeout
        source := if img.timeout = 0 then .off else .watching (after s.time (img.timeout * 1000)) } ∧
      t.queue =
        { notices := [{ sequence := 0, time := s.time, source := .device
                        body := .started s.cause outcome g
                          ((List.finRange 8).countP fun c => match t.channels[c].config with
                            | some cfg => cfg.bootArmed
                            | none => false) }]
          nextSeq := 1, dropped := 0, mask := BitVec.ofNat 3 img.attention }

/-! Requests of the patterns and the channels -/

/-- DEFINE_PATTERN of a lawful pattern: IN_USE while a channel outside IDLE names the id, else POOL_FULL when the free steps and
those of the pattern replaced do not cover it, else creation or replacement; a replacement clears and resizes the observed table
of every channel that names the id (R8 to R13). -/
def Obligations.DefinePatternCreatesOrReplaces : Prop :=
  ∀ (s : State) (tag : Byte) (id : Fin 16) (p : Pattern) (params : List Byte) (rest : List Frame), p.Lawful →
    params = [byte id, levelByte p.startLevel, byte p.steps.length] ++ p.steps.flatMap PatternStep.bytes →
    s.Ready ⟨tag, 0x40, params⟩ rest →
    ((∃ c : Fin 8, s.namesPattern id c = true ∧ s.channels[c].state ≠ .idle) →
      s.patterns[id] ≠ none → exec (.definePattern tag params) s = .next (s.refused rest tag .inUse)) ∧
    ((∀ c : Fin 8, s.namesPattern id c = true → s.channels[c].state = .idle) →
      (96 - s.stepsInUse + ((s.patterns[id].map (·.steps.length)).getD 0) < p.steps.length →
        exec (.definePattern tag params) s = .next (s.refused rest tag .poolFull)) ∧
      (p.steps.length ≤ 96 - s.stepsInUse + ((s.patterns[id].map (·.steps.length)).getD 0) →
        ∃ t : State, exec (.definePattern tag params) s = .next t ∧
          t.patterns = s.patterns.set id (some p) ∧
          t.stepsInUse + ((s.patterns[id].map (·.steps.length)).getD 0) = s.stepsInUse + p.steps.length ∧
          (∀ c : Fin 8, t.channels[c] =
            if s.patterns[id] ≠ none ∧ s.namesPattern id c = true then
              { s.channels[c] with
                observed := List.replicate p.steps.length { count := 0, shortest := none, longest := none }
                closure := none }
            else s.channels[c]) ∧
          t = { s.answered rest tag [byte id, byte (96 - t.stepsInUse),
                byte (if s.patterns[id] ≠ none then (List.finRange 8).countP (s.namesPattern id) else 0)] with
            patterns := t.patterns, channels := t.channels }))

/-- DELETE_PATTERN: NO_SUCH_PATTERN for an empty slot, then IN_USE while a configuration names the id, else the slot is emptied
and its steps return to the pool (R14, R161). -/
def Obligations.DeletePatternEmptiesTheSlot : Prop :=
  ∀ (s : State) (tag : Byte) (id : Fin 16) (rest : List Frame), s.Ready ⟨tag, 0x41, [byte id]⟩ rest →
    (s.patterns[id] = none → exec (.deletePattern tag [byte id]) s = .next (s.refused rest tag .noSuchPattern)) ∧
    (s.patterns[id] ≠ none → (∃ c : Fin 8, s.namesPattern id c = true) →
      exec (.deletePattern tag [byte id]) s = .next (s.refused rest tag .inUse)) ∧
    (∀ p : Pattern, s.patterns[id] = some p → (∀ c : Fin 8, s.namesPattern id c = false) →
      exec (.deletePattern tag [byte id]) s =
        .next { s.answered rest tag [byte id, byte (96 - (s.stepsInUse - p.steps.length))] with
          patterns := s.patterns.set id none })

/-- READ_PATTERN, READ_LINE, READ_CHANNEL and READ_OBSERVED change nothing but the link, and answer the fields of R15, R28, R51
and R52, a value that is absent as R170 writes it; READ_PATTERN of an empty slot is refused with NO_SUCH_PATTERN, READ_OBSERVED
of an unconfigured channel with NOT_CONFIGURED (R173). -/
def Obligations.ReadsOfPatternsLinesAndChannels : Prop :=
  (∀ (s : State) (tag : Byte) (rest : List Frame),
     (∀ id : Fin 16, s.Ready ⟨tag, 0x42, [byte id]⟩ rest →
       (s.patterns[id] = none → exec (.readPattern tag [byte id]) s = .next (s.refused rest tag .noSuchPattern)) ∧
       (∀ p : Pattern, s.patterns[id] = some p →
         exec (.readPattern tag [byte id]) s = .next (s.answered rest tag
           ([byte id, levelByte p.startLevel, byte p.steps.length] ++
             (p.steps.flatMap fun st => be24 st.min ++ be24 st.max ++ [if st.mark then (1 : Byte) else 0]) ++
             [byte (96 - s.stepsInUse), channelSet (s.namesPattern id)])))) ∧
     (∀ l : Fin 8, s.Ready ⟨tag, 0x71, [byte l]⟩ rest →
       exec (.readLine tag [byte l]) s = .next (s.answered rest tag
         ([byte l] ++ be32 s.time.toNat ++ be16 s.lines[l].filter ++
           [levelByte s.lines[l].raw, levelByte s.lines[l].filtered] ++
           (match s.lines[l].runStart with | some t => 1 :: be32 t.toNat | none => [0, 0, 0, 0, 0]) ++
           be16 s.lines[l].runts.toNat ++ be32 s.lines[l].edges.toNat ++ [channelSet (s.namesLine l)])))) ∧
  ∀ (s : State) (tag : Byte) (c : Fin 8) (rest : List Frame),
    (s.Ready ⟨tag, 0x57, [byte c]⟩ rest →
      exec (.readChannel tag [byte c]) s = .next (s.answered rest tag
        ([byte c] ++ be32 s.time.toNat ++
          (match s.channels[c].config with
            | some cfg => 1 :: cfg.bytes
            | none => List.replicate 11 (0 : Byte)) ++
          (match s.channels[c].state with
            | .idle => (0 : Byte) :: List.replicate 12 0
            | .seeking none => 1 :: List.replicate 12 0
            | .seeking (some due) => 1 :: (List.replicate 7 0 ++ 1 :: be32 due.toNat)
            | .tracking k start due => [2, 1, byte k, 1] ++ be32 start.toNat ++ 1 :: be32 due.toNat
            | .paused => 3 :: List.replicate 12 0
            | .tripped => 4 :: List.replicate 12 0) ++
          [byte s.channels[c].strikes, byte s.channels[c].goodRun] ++ be32 s.channels[c].cycles.toNat ++
          be16 s.channels[c].counts.early.toNat ++ be16 s.channels[c].counts.late.toNat ++
          be16 s.channels[c].counts.noSignal.toNat ++ be16 s.channels[c].counts.injected.toNat ++
          (match s.channels[c].last with
            | none => List.replicate 12 0
            | some d =>
              [1, d.kind.toByte] ++ (match d.step with | some k => [1, byte k] | none => [0, 0]) ++
                (match d.measured with | some m => 1 :: be24 m | none => [0, 0, 0, 0]) ++ be32 d.time.toNat) ++
          [if 0 < tripCount s.queue.notices (.channel c) then 1 else 0]))) ∧
    (s.Ready ⟨tag, 0x58, [byte c]⟩ rest →
      (s.channels[c].config = none →
        exec (.readObserved tag [byte c]) s = .next (s.refused rest tag .notConfigured)) ∧
      (∀ cfg : ChannelConfig, s.channels[c].config = some cfg →
        exec (.readObserved tag [byte c]) s = .next (s.answered rest tag
          ([byte c, byte cfg.pattern, byte s.channels[c].observed.length] ++
            s.channels[c].observed.flatMap fun e =>
              be16 e.count.toNat ++ be24 (e.shortest.getD 0) ++ be24 (e.longest.getD 0)))))

/-- CONFIGURE_CHANNEL: WRONG_STATE outside IDLE, then NO_SUCH_PATTERN for an empty id, else the configuration is written and the
observed table cleared and sized, and the runtime record keeps its values (R34, R159). -/
def Obligations.ConfigureChannelWritesTheConfiguration : Prop :=
  ∀ (s : State) (tag : Byte) (c : Fin 8) (cfg : ChannelConfig) (rest : List Frame), cfg.InRange →
    s.Ready ⟨tag, 0x50, byte c :: cfg.bytes⟩ rest →
    (s.channels[c].state ≠ .idle →
      exec (.configureChannel tag (byte c :: cfg.bytes)) s = .next (s.refused rest tag .wrongState)) ∧
    (s.channels[c].state = .idle → s.patterns[cfg.pattern] = none →
      exec (.configureChannel tag (byte c :: cfg.bytes)) s = .next (s.refused rest tag .noSuchPattern)) ∧
    (∀ p : Pattern, s.channels[c].state = .idle → s.patterns[cfg.pattern] = some p →
      exec (.configureChannel tag (byte c :: cfg.bytes)) s =
        .next { s.answered rest tag [byte c, byte p.steps.length] with
          channels := s.channels.set c { s.channels[c] with
            config := some cfg
            observed := List.replicate p.steps.length { count := 0, shortest := none, longest := none }
            closure := none } })

/-- CLEAR_CHANNEL: WRONG_STATE outside IDLE, then NOT_CONFIGURED, else the configuration and the observed table are removed and
the cycles, counts and last deviation cleared (R35, R158). CLEAR_OBSERVED: NOT_CONFIGURED, else the table, and a closure with
it, is cleared and nothing else of the channel changes (R53, R66). -/
def Obligations.ClearChannelAndClearObserved : Prop :=
  ∀ (s : State) (tag : Byte) (c : Fin 8) (rest : List Frame),
    (s.Ready ⟨tag, 0x51, [byte c]⟩ rest →
      (s.channels[c].state ≠ .idle →
        exec (.clearChannel tag [byte c]) s = .next (s.refused rest tag .wrongState)) ∧
      (s.channels[c].state = .idle → s.channels[c].config = none →
        exec (.clearChannel tag [byte c]) s = .next (s.refused rest tag .notConfigured)) ∧
      (s.channels[c].state = .idle → s.channels[c].config ≠ none →
        exec (.clearChannel tag [byte c]) s =
          .next { s.answered rest tag [byte c] with
            channels := s.channels.set c { s.channels[c] with
              config := none, observed := [], cycles := 0, counts := ⟨0, 0, 0, 0⟩, last := none, closure := none } })) ∧
    (s.Ready ⟨tag, 0x59, [byte c]⟩ rest →
      (s.channels[c].config = none →
        exec (.clearObserved tag [byte c]) s = .next (s.refused rest tag .notConfigured)) ∧
      (∀ (cfg : ChannelConfig) (p : Pattern), s.channels[c].config = some cfg → s.patterns[cfg.pattern] = some p →
        exec (.clearObserved tag [byte c]) s =
          .next { s.answered rest tag [byte c] with
            channels := s.channels.set c { s.channels[c] with
              observed := List.replicate p.steps.length { count := 0, shortest := none, longest := none }
              closure := none } }))

/-- ARM: WRONG_STATE outside IDLE, then NOT_CONFIGURED, then NOTICE_PENDING, else every runtime record is cleared and the channel
seeks, its acquire expiry placed a limit from now when there is one (R36, R37, R157). -/
def Obligations.ArmClearsAndSeeks : Prop :=
  ∀ (s : State) (tag : Byte) (c : Fin 8) (rest : List Frame), s.Ready ⟨tag, 0x52, [byte c]⟩ rest →
    (s.channels[c].state ≠ .idle → exec (.arm tag [byte c]) s = .next (s.refused rest tag .wrongState)) ∧
    (s.channels[c].state = .idle → s.channels[c].config = none →
      exec (.arm tag [byte c]) s = .next (s.refused rest tag .notConfigured)) ∧
    (∀ cfg : ChannelConfig, s.channels[c].state = .idle → s.channels[c].config = some cfg →
      (0 < tripCount s.queue.notices (.channel c) →
        exec (.arm tag [byte c]) s = .next (s.refused rest tag .noticePending)) ∧
      (tripCount s.queue.notices (.channel c) = 0 → ∀ p : Pattern, s.patterns[cfg.pattern] = some p →
        exec (.arm tag [byte c]) s =
          .next { s.answered rest tag [byte c] with
            channels := s.channels.set c
              { config := some cfg
                state := .seeking (cfg.acquire.map (after s.time))
                strikes := 0, goodRun := 0, cycles := 0, counts := ⟨0, 0, 0, 0⟩, last := none
                observed := List.replicate p.steps.length { count := 0, shortest := none, longest := none }
                closure := none } }))

/-- PAUSE takes SEEKING or TRACKING to PAUSED and RESUME takes PAUSED to SEEKING, both keeping every count and record; from any
other state they are refused with WRONG_STATE (R38, R39). -/
def Obligations.PauseAndResume : Prop :=
  ∀ (s : State) (tag : Byte) (c : Fin 8) (rest : List Frame),
    (s.Ready ⟨tag, 0x54, [byte c]⟩ rest →
      ((∃ e, s.channels[c].state = .seeking e) ∨ (∃ k start due, s.channels[c].state = .tracking k start due) →
        exec (.pause tag [byte c]) s =
          .next { s.answered rest tag [byte c] with
            channels := s.channels.set c { s.channels[c] with state := .paused } }) ∧
      (s.channels[c].state = .idle ∨ s.channels[c].state = .paused ∨ s.channels[c].state = .tripped →
        exec (.pause tag [byte c]) s = .next (s.refused rest tag .wrongState))) ∧
    (s.Ready ⟨tag, 0x55, [byte c]⟩ rest →
      (∀ cfg : ChannelConfig, s.channels[c].state = .paused → s.channels[c].config = some cfg →
        exec (.resume tag [byte c]) s =
          .next { s.answered rest tag [byte c] with
            channels := s.channels.set c
              { s.channels[c] with state := .seeking (cfg.acquire.map (after s.time)) } }) ∧
      (s.channels[c].state ≠ .paused →
        exec (.resume tag [byte c]) s = .next (s.refused rest tag .wrongState)))

/-- DISARM is accepted in every state and answers the state before: IDLE stays, SEEKING, TRACKING and PAUSED become IDLE with
strikes and good run 0, and from TRIPPED the channel's claims are released as well (R40). -/
def Obligations.DisarmReturnsToIdle : Prop :=
  ∀ (s : State) (tag : Byte) (c : Fin 8) (rest : List Frame), s.Ready ⟨tag, 0x53, [byte c]⟩ rest →
    (s.channels[c].state = .idle → exec (.disarm tag [byte c]) s = .next (s.answered rest tag [byte c, 0])) ∧
    (∀ code : Byte,
      ((∃ e, s.channels[c].state = .seeking e) ∧ code = 1) ∨
        ((∃ k start due, s.channels[c].state = .tracking k start due) ∧ code = 2) ∨
        (s.channels[c].state = .paused ∧ code = 3) →
      exec (.disarm tag [byte c]) s =
        .next { s.answered rest tag [byte c, code] with
          channels := s.channels.set c { s.channels[c] with state := .idle, strikes := 0, goodRun := 0 } }) ∧
    (s.channels[c].state = .tripped →
      exec (.disarm tag [byte c]) s =
        .next { s.answered rest tag [byte c, 4] with
          channels := s.channels.set c { s.channels[c] with state := .idle, strikes := 0, goodRun := 0 }
          claims := Vector.ofFn fun o : Fin 6 => s.claims[o].filter fun cl => cl.source ≠ .channel c
          outputs := (s.releaseClaims (.channel c)).outputs })

/-- INJECT on a supervising channel handles an INJECTED deviation at the present time, with the step in TRACKING, and answers the
strikes after and whether the channel tripped; any other state is refused with WRONG_STATE (R73). -/
def Obligations.InjectHandlesADeviation : Prop :=
  ∀ (s : State) (tag : Byte) (c : Fin 8) (rest : List Frame), s.Ready ⟨tag, 0x56, [byte c]⟩ rest →
    (s.channels[c].state = .idle ∨ s.channels[c].state = .paused ∨ s.channels[c].state = .tripped →
      exec (.inject tag [byte c]) s = .next (s.refused rest tag .wrongState)) ∧
    (∀ (step : Option Nat) (u : State),
      ((∃ e, s.channels[c].state = .seeking e) ∧ step = none) ∨
        (∃ k start due, s.channels[c].state = .tracking k start due ∧ step = some k) →
      u = (s.taken rest).handleDeviation c { kind := .injected, step, measured := none, time := s.time } →
      exec (.inject tag [byte c]) s =
        .next { u with link := (s.answered rest tag
          [byte c, byte u.channels[c].strikes, if u.channels[c].state = .tripped then 1 else 0]).link })

/-! Requests of the reactions and the outputs -/

/-- SET_REACTION: SOURCE_TRIPPED while the entry's present source is TRIPPED, then while the new source is; else the entry takes
the new content or is emptied, no claim and no output changes, and the entries in use are answered. The five bytes after an
EMPTY flag are not examined (R77, R78, R167, R172). -/
def Obligations.SetReactionWritesTheEntry : Prop :=
  ∀ (s : State) (tag : Byte) (i : Fin 32) (new : Option Reaction) (params : List Byte) (rest : List Frame),
    ((new = none ∧ ∃ a b c d e : Byte, params = [byte i, 1, a, b, c, d, e]) ∨
      ∃ r : Reaction, new = some r ∧
        params = [byte i, 0, r.source.toByte, byte r.output] ++ be16 r.drive.code ++ [byte r.priority]) →
    s.Ready ⟨tag, 0x60, params⟩ rest →
    ((∃ r : Reaction, (s.reactions[i] = some r ∨ new = some r) ∧ s.sourceTripped r.source = true) →
      exec (.setReaction tag params) s = .next (s.refused rest tag .sourceTripped)) ∧
    ((∀ r : Reaction, s.reactions[i] = some r ∨ new = some r → s.sourceTripped r.source = false) →
      exec (.setReaction tag params) s =
        .next { s.answered rest tag [byte i, byte ((s.reactions.set i new).toList.countP (·.isSome))] with
          reactions := s.reactions.set i new })

/-- READ_REACTION answers the entry, whether it holds a claim, the claim's place and whether it wins; READ_OUTPUT answers the
generator's record, the effective drive and the claim list; neither changes anything but the link (R79, R102, R173). -/
def Obligations.ReadReactionAndOutput : Prop :=
  ∀ (s : State) (tag : Byte) (rest : List Frame),
    (∀ i : Fin 32, s.Ready ⟨tag, 0x61, [byte i]⟩ rest →
      (s.reactions[i] = none →
        exec (.readReaction tag [byte i]) s =
          .next (s.answered rest tag [byte i, 1, 0, 0, 0, 0, 0, 0, 0, 0, 0, 0])) ∧
      (∀ r : Reaction, s.reactions[i] = some r →
        exec (.readReaction tag [byte i]) s = .next (s.answered rest tag
          ([byte i, 0, r.source.toByte, byte r.output] ++ be16 r.drive.code ++ [byte r.priority] ++
            match s.claims[r.output].findIdx? fun cl => cl.index = i with
            | none => [0, 0, 0, 0, 0]
            | some place =>
              [1, 1, byte place, 1, if ((winner s.claims[r.output]).map (·.index)) = some i then 1 else 0])))) ∧
    (∀ o : Fin 6, s.Ready ⟨tag, 0x69, [byte o]⟩ rest →
      exec (.readOutput tag [byte o]) s = .next (s.answered rest tag
        ([byte o] ++ be32 s.time.toNat ++ be16 s.outputs[o].base.code ++ [byte s.outputs[o].rate] ++
          be16 (s.effective o).code ++ be16 s.outputs[o].applied.code ++
          [if s.outputs[o].pending then (1 : Byte) else 0] ++
          (match s.outputs[o].frameStart with | some t => 1 :: be32 t.toNat | none => [0, 0, 0, 0, 0]) ++
          [byte s.claims[o].length] ++
          s.claims[o].flatMap fun cl =>
            [byte cl.index, cl.source.toByte, byte cl.priority] ++ be16 cl.drive.code)))

/-- SET_OUTPUT, by whether the rate changes, claims are held, and the applied drive and the new base are DUTY: recorded, made
pending to the awaited frame end, or applied at once (R97, R98, R99). -/
def Obligations.SetOutputTakesEffect : Prop :=
  ∀ (s : State) (tag : Byte) (o : Fin 6) (base : Drive) (rate : Fin 5) (params : List Byte) (rest : List Frame)
    (g : Generator),
    g = s.outputs[o] → params = [byte o] ++ be16 base.code ++ [byte rate] → s.Ready ⟨tag, 0x68, params⟩ rest →
    (rate = g.rate → s.claims[o] ≠ [] →
      exec (.setOutput tag params) s =
        .next { s.answered rest tag [byte o, 2, 0, 0, 0, 0, 0] with outputs := s.outputs.set o { g with base } }) ∧
    (rate = g.rate → s.claims[o] = [] → g.applied.isDuty = true → base.isDuty = true →
      ∀ start : Time, g.frameStart = some start →
      exec (.setOutput tag params) s =
        .next { s.answered rest tag ([byte o, 1, 1] ++ be32 (after start (256 * 2 ^ g.rate.val)).toNat) with
          outputs := s.outputs.set o { g with base, pending := true } }) ∧
    (rate = g.rate → s.claims[o] = [] → (g.applied.isDuty = false ∨ base.isDuty = false) →
      exec (.setOutput tag params) s =
        .next { s.answered rest tag [byte o, 0, 0, 0, 0, 0, 0] with
          outputs := s.outputs.set o { g with
            base, applied := base, pending := false, frameStart := if base.isDuty then some s.time else none } }) ∧
    (rate ≠ g.rate → s.claims[o] = [] →
      exec (.setOutput tag params) s =
        .next { s.answered rest tag [byte o, 0, 0, 0, 0, 0, 0] with
          outputs := s.outputs.set o
            { base, rate, applied := base, pending := false
              frameStart := if base.isDuty then some s.time else none } }) ∧
    (rate ≠ g.rate → s.claims[o] ≠ [] →
      exec (.setOutput tag params) s =
        .next { s.answered rest tag [byte o, 2, 0, 0, 0, 0, 0] with
          outputs := s.outputs.set o { g with
            base, rate, frameStart := if g.applied.isDuty then some s.time else none } })

/-- SET_LINE replaces F, accepts at once a run that has lasted it, hands the edge with its run-start time to the channels of the
line and then hands them the new F, and clears the counts when asked; nothing else changes (R25, R26, R27). Each channel that
names the line acts on the edge before its own deadline moves, and nothing else is ordered among the channels (R26, R113; the
model's choice, log 22). A channel in TRACKING has its deadline moved to step start + max + F, and is LATE by it when that time
has been reached; any other stays. A channel of another line stays. -/
def Obligations.SetLineReplacesTheFilterTime : Prop :=
  (∀ (s : State) (tag : Byte) (l : Fin 8) (f : Nat) (clear accepted : Bool) (params : List Byte) (rest : List Frame) (x : Line)
     (u v w : State),
     f ≤ 1023 → params = [byte l] ++ be16 f ++ [if clear then 1 else 0] → s.Ready ⟨tag, 0x70, params⟩ rest →
     x = s.lines[l] →
     accepted = (match x.runStart with | some t => decide (f ≤ elapsed s.time t) | none => false) →
     u = { s.taken rest with lines := s.lines.set l { x with filter := f } } →
     v = { u with
       lines := s.lines.set l { x with filter := f, filtered := x.raw, edges := x.edges + 1, runStart := none } } →
     w = (match x.runStart with
       | some t => if f ≤ elapsed s.time t then v.edgeThenFilter l x.raw t else u.handOnFilter l
       | none => u.handOnFilter l) →
     exec (.setLine tag params) s =
       .next { w with
         lines := s.lines.set l
           { pin := x.pin, sampled := x.sampled, filter := f, raw := x.raw
             filtered := if accepted then x.raw else x.filtered
             runStart := if accepted then none else x.runStart
             runts := if clear then 0 else x.runts
             edges := if clear then 0 else if accepted then x.edges + 1 else x.edges }
         link := (s.answered rest tag ([byte l] ++ be16 f ++ be16 x.runts.toNat ++ be32 x.edges.toNat ++
           [if accepted then 1 else 0])).link } ∧
     (∀ c : Fin 8, s.namesLine l c = false → w.channels[c] = s.channels[c]) ∧
     (accepted = false → ∀ (c : Fin 8) (cfg : ChannelConfig) (p : Pattern) (k : Nat) (st : PatternStep)
       (start due : Time), s.channels[c].config = some cfg → cfg.line = l → s.patterns[cfg.pattern] = some p →
       p.steps[k]? = some st → s.channels[c].state = .tracking k start due →
       (reached s.time (after start (st.max + f)) = false →
         w.channels[c] = { s.channels[c] with state := .tracking k start (after start (st.max + f)) }) ∧
       (reached s.time (after start (st.max + f)) = true →
         w.channels[c].last =
           some { kind := .late, step := some k, measured := some st.max, time := after start st.max } ∧
         w.channels[c].strikes = s.channels[c].strikes + 1 ∧
         w.channels[c].observed = s.channels[c].observed)) ∧
     (∀ t : Time, x.runStart = some t → accepted = true → ∀ c : Fin 8, s.namesLine l c = true →
       w.channels[c] = ((v.edgeTurn c x.raw t).moveDeadline c).channels[c]) ∧
     w = { s.taken rest with
       lines := w.lines, channels := w.channels, claims := w.claims, outputs := w.outputs, queue := w.queue
       draws := w.draws }) ∧
  (∀ (v : State) (l : Fin 8), ∃ cs : List (Fin 8), cs.Perm ((List.finRange 8).filter fun c => v.namesLine l c) ∧
     v.handOnFilter l = cs.foldl (fun t c => t.moveDeadline c)
       { v with draws := if 2 ≤ cs.length then v.draws + 1 else v.draws }) ∧
  (∀ (v : State) (l : Fin 8) (level : Level) (t : Time), ∃ turns : List (Fin 8 × Bool),
     (∀ c : Fin 8, turns.filter (fun x => x.1 = c) = if v.namesLine l c then [(c, false), (c, true)] else []) ∧
     v.edgeThenFilter l level t =
       turns.foldl (fun u x => if x.2 then u.moveDeadline x.1 else u.edgeTurn x.1 level t)
         { v with draws := if 2 < turns.length then v.draws + 1 else v.draws }) ∧
  ∀ (v : State) (c : Fin 8),
    ((∀ k start due, v.channels[c].state ≠ .tracking k start due) → v.moveDeadline c = v) ∧
    ∀ (cfg : ChannelConfig) (p : Pattern) (k : Nat) (st : PatternStep) (start due : Time) (u : State),
      v.channels[c].config = some cfg → v.patterns[cfg.pattern] = some p → p.steps[k]? = some st →
      v.channels[c].state = .tracking k start due →
      u = { v with channels := v.channels.set c { v.channels[c] with
        state := .tracking k start (after start (st.max + v.lines[cfg.line].filter)) } } →
      (reached v.time (after start (st.max + v.lines[cfg.line].filter)) = false → v.moveDeadline c = u) ∧
      (reached v.time (after start (st.max + v.lines[cfg.line].filter)) = true →
        exec (.stepDeadline c) u = .next (v.moveDeadline c))

/-! Lines, edges and channels -/

/-- RAW_CHANGE: in RUNNING the sample of this microsecond that differs from the raw level ends the run held as a runt (R21),
begins a run, or with F = 0 is accepted at once with its own time as stamp (R20); a sample equal to the raw level is no raw
change, and a line is sampled once a microsecond: after its sample only the level outside changes (R19; log 8); outside
RUNNING nothing of the record but that level changes (R29). QUALIFICATION_EXPIRY: when device time has reached run start +
F the filtered level takes the raw level, the edge is counted, the run ends, and the edge, stamped with the run-start time, is
handed to the channels (R22); before that, and without a run, there is no expiry to deliver (R18; the model's convention, log
2). -/
def Obligations.RunsBeginEndAndQualify : Prop :=
  (∀ (s : State) (l : Fin 8) (level : Level) (x : Line), x = s.lines[l] →
     (s.device ≠ .running ∨ x.sampled = true →
       exec (.rawChange l level) s = .next { s with lines := s.lines.set l { x with pin := level } }) ∧
     (s.device = .running → x.sampled = false → level = x.raw →
       exec (.rawChange l level) s =
         .next { s with lines := s.lines.set l { x with pin := level, sampled := true } }) ∧
     (s.device = .running → x.sampled = false → level ≠ x.raw →
       (∀ t : Time, x.runStart = some t →
         exec (.rawChange l level) s =
           .next { s with
             lines := s.lines.set l
               { x with pin := level, sampled := true, raw := level, runStart := none, runts := satSucc x.runts } }) ∧
       (x.runStart = none → x.filter ≠ 0 →
         exec (.rawChange l level) s =
           .next { s with
             lines := s.lines.set l
               { x with pin := level, sampled := true, raw := level, runStart := some s.time } }) ∧
       (x.runStart = none → x.filter = 0 →
         exec (.rawChange l level) s =
           .next (State.deliverEdge
             { s with
               lines := s.lines.set l
                 { x with
                   pin := level, sampled := true, raw := level, filtered := level, edges := x.edges + 1
                   runStart := none } }
             l level s.time)))) ∧
  ∀ (s : State) (l : Fin 8) (x : Line), x = s.lines[l] →
    (x.runStart = none → exec (.qualificationExpiry l) s = .next s) ∧
    (∀ t : Time, x.runStart = some t →
      (reached s.time (after t x.filter) = false → exec (.qualificationExpiry l) s = .next s) ∧
      (reached s.time (after t x.filter) = true →
        exec (.qualificationExpiry l) s =
          .next (State.deliverEdge
            { s with
              lines := s.lines.set l
                { x with filtered := x.raw, edges := x.edges + 1, runStart := none } }
            l x.raw t)))

/-- An accepted edge reaches every channel whose configuration names the line and no other; each channel acts on it as if it were
alone, and the patterns, lines, reactions, link, store and device time stay (R23). The state it leaves, with its claims,
outputs and notices, is that of the channels of the line acting on it one after another, in an order that is free (R87,
R113; the model's choice, log 22). An edge delivered to a channel is its turn with the edge, and then the delivery of a step
deadline that has been reached (R18, R43; log 17). -/
def Obligations.AnEdgeReachesTheChannelsOfItsLine : Prop :=
  (∀ (s : State) (c : Fin 8) (level : Level) (t : Time),
     exec (.stepDeadline c) (s.edgeTurn c level t) = .next (s.edgeToChannel c level t)) ∧
  ∀ (s : State) (l : Fin 8) (level : Level) (t : Time) (u : State), u = s.deliverEdge l level t →
    (∀ c : Fin 8, s.namesLine l c = false → u.channels[c] = s.channels[c]) ∧
    (∀ c : Fin 8, s.namesLine l c = true → u.channels[c] = (s.edgeToChannel c level t).channels[c]) ∧
    ((∀ c : Fin 8, s.namesLine l c = false) → u = s) ∧
    (∀ c : Fin 8, (∀ d : Fin 8, s.namesLine l d = decide (d = c)) → u = s.edgeToChannel c level t) ∧
    (∃ cs : List (Fin 8), cs.Perm ((List.finRange 8).filter fun c => s.namesLine l c) ∧
      u = cs.foldl (fun v c => v.edgeToChannel c level t)
        { s with draws := if 2 ≤ cs.length then s.draws + 1 else s.draws }) ∧
    u = { s with
      channels := u.channels, claims := u.claims, outputs := u.outputs, queue := u.queue, draws := u.draws }

/-- An edge to a channel with no closure for it: ignored in IDLE, PAUSED and TRIPPED (R33); in SEEKING ignored into the other
level and, into the start level, a sync edge that begins step 0 at its stamp, with the deadline at stamp + max + F (R42,
R43); a deadline already reached is delivered at once (R43, log 17). In whatever state the channel is, an edge stamped at the
closing time of its deadline closure updates the entry of the closed step with max and removes the closure, and is then dealt
with as the state calls for (R66). -/
def Obligations.ASyncEdgeBeginsStepZero : Prop :=
  (∀ (s : State) (c : Fin 8) (level : Level) (t : Time), s.channels[c].closure.all (fun cl => cl.closing ≠ t) = true →
     (s.channels[c].state = .idle ∨ s.channels[c].state = .paused ∨ s.channels[c].state = .tripped →
       s.edgeTurn c level t = s ∧ s.edgeToChannel c level t = s) ∧
     (∀ (e : Option Time) (cfg : ChannelConfig) (p : Pattern) (st : PatternStep), s.channels[c].state = .seeking e →
       s.channels[c].config = some cfg → s.patterns[cfg.pattern] = some p → p.steps[0]? = some st →
       (level ≠ p.startLevel → s.edgeTurn c level t = s ∧ s.edgeToChannel c level t = s) ∧
       (level = p.startLevel →
         s.edgeTurn c level t =
           { s with channels := s.channels.set c { s.channels[c] with
             state := .tracking 0 t (after t (st.max + s.lines[cfg.line].filter)) } }) ∧
       (level = p.startLevel → reached s.time (after t (st.max + s.lines[cfg.line].filter)) = false →
         s.edgeToChannel c level t =
           { s with channels := s.channels.set c { s.channels[c] with
             state := .tracking 0 t (after t (st.max + s.lines[cfg.line].filter)) } }) ∧
       (level = p.startLevel → reached s.time (after t (st.max + s.lines[cfg.line].filter)) = true →
         exec (.stepDeadline c) { s with channels := s.channels.set c { s.channels[c] with
             state := .tracking 0 t (after t (st.max + s.lines[cfg.line].filter)) } } =
           .next (s.edgeToChannel c level t)))) ∧
  ∀ (s : State) (c : Fin 8) (level : Level) (t : Time) (cl : Closure) (cfg : ChannelConfig) (p : Pattern)
    (st : PatternStep) (u : State),
    s.channels[c].closure = some cl → cl.closing = t → s.channels[c].config = some cfg →
    s.patterns[cfg.pattern] = some p → p.steps[cl.step]? = some st →
    u = { s with channels := s.channels.set c { s.channels[c] with
      observed := s.channels[c].observed.modify cl.step fun e =>
        { count := satSucc e.count
          shortest := some (if e.count = 0 then st.max else Nat.min st.max (e.shortest.getD st.max))
          longest := some (if e.count = 0 then st.max else Nat.max st.max (e.longest.getD st.max)) }
      closure := none } } →
    s.edgeTurn c level t = u.edgeTurn c level t ∧ s.edgeToChannel c level t = u.edgeToChannel c level t ∧
      (s.channels[c].state = .idle ∨ s.channels[c].state = .paused ∨ s.channels[c].state = .tripped →
        s.edgeTurn c level t = u ∧ s.edgeToChannel c level t = u)

/-- An edge inside the window passes the step: the observed entry takes the duration, a marked step in a mask with MARK offers its
notice with the cycle count before, the index advances, a wrap counts a cycle and the good run and forgives a strike at forgive
cycles, and the next step begins at the stamp (R32, R44 to R48); a deadline of that step already reached is delivered at once
(R43, R49; log 17). -/
def Obligations.AnEdgeInTheWindowPassesTheStep : Prop :=
  ∀ (s : State) (c : Fin 8) (level : Level) (t start due : Time) (cfg : ChannelConfig) (p : Pattern) (k next d : Nat)
    (st st' : PatternStep) (ch : Channel) (u : State),
    ch = s.channels[c] → ch.closure.all (fun cl => cl.closing ≠ t) = true →
    ch.state = .tracking k start due → ch.config = some cfg → s.patterns[cfg.pattern] = some p →
    p.steps[k]? = some st → d = elapsed t start → st.min ≤ d → d < st.max →
    next = (if k + 1 = p.steps.length then 0 else k + 1) → p.steps[next]? = some st' →
    u =
      { s with
        queue :=
          if st.mark = true ∧ cfg.report.getLsbD 4 = true then
            s.queue.offer t (.trip (.channel c)) (.mark k d ch.cycles)
          else s.queue
        channels := s.channels.set c
          { ch with
            state := .tracking next t (after t (st'.max + s.lines[cfg.line].filter))
            observed := ch.observed.modify k fun e =>
              { count := satSucc e.count
                shortest := some (if e.count = 0 then d else Nat.min d (e.shortest.getD d))
                longest := some (if e.count = 0 then d else Nat.max d (e.longest.getD d)) }
            cycles := if k + 1 = p.steps.length then ch.cycles + 1 else ch.cycles
            goodRun :=
              if k + 1 = p.steps.length ∧ cfg.forgive ≠ 0 then
                if ch.goodRun + 1 = cfg.forgive then 0 else ch.goodRun + 1
              else ch.goodRun
            strikes :=
              if k + 1 = p.steps.length ∧ cfg.forgive ≠ 0 ∧ ch.goodRun + 1 = cfg.forgive then ch.strikes - 1
              else ch.strikes } } →
    s.edgeTurn c level t = u ∧
    (reached s.time (after t (st'.max + s.lines[cfg.line].filter)) = false → s.edgeToChannel c level t = u) ∧
    (reached s.time (after t (st'.max + s.lines[cfg.line].filter)) = true →
      exec (.stepDeadline c) u = .next (s.edgeToChannel c level t))

/-- An edge outside the window: below min it is EARLY with the duration, at max LATE with max; the observed entry takes the duration
first, the deviation is handled, and then a channel that did not trip is offered the edge in SEEKING, where into the start level
it begins step 0 at its stamp (R44, R57, R58, R61, R65). R44 and R58 know only the duration max: that an edge beyond max is LATE
with max, at the time of its stamp, is what the model deduces (log 11). A deadline of step 0 that has already been reached when
the edge places it is delivered at once (R43, R49), which the model does within the same step (log 17). -/
def Obligations.AnEdgeOutsideTheWindowDeviates : Prop :=
  ∀ (s : State) (c : Fin 8) (level : Level) (t start due : Time) (cfg : ChannelConfig) (p : Pattern) (k d : Nat)
    (st st0 : PatternStep) (u v w : State) (dev : Deviation),
    s.channels[c].closure.all (fun cl => cl.closing ≠ t) = true → s.channels[c].state = .tracking k start due →
    s.channels[c].config = some cfg → s.patterns[cfg.pattern] = some p → p.steps[k]? = some st → d = elapsed t start →
    (d < st.min ∧ dev = { kind := .early, step := some k, measured := some d, time := t }) ∨
      (st.min ≤ d ∧ st.max ≤ d ∧ dev = { kind := .late, step := some k, measured := some st.max, time := t }) →
    u = { s with
      channels := s.channels.set c
        { s.channels[c] with observed := s.channels[c].observed.modify k (·.update d) } } →
    v = u.handleDeviation c dev →
    (v.channels[c].state = .tripped ∨ level ≠ p.startLevel →
      s.edgeTurn c level t = v ∧ s.edgeToChannel c level t = v) ∧
    (v.channels[c].state ≠ .tripped → level = p.startLevel → p.steps[0]? = some st0 →
      w = { v with channels := v.channels.set c { v.channels[c] with
        state := .tracking 0 t (after t (st0.max + s.lines[cfg.line].filter)) } } →
      s.edgeTurn c level t = w ∧
      (reached s.time (after t (st0.max + s.lines[cfg.line].filter)) = false → s.edgeToChannel c level t = w) ∧
      (reached s.time (after t (st0.max + s.lines[cfg.line].filter)) = true →
        exec (.stepDeadline c) w = .next (s.edgeToChannel c level t)))

/-- The step deadline forms a LATE deviation with max, stamped when the window closed, and holds a deadline closure (R49, R59,
R66); the acquire expiry forms NO_SIGNAL at its time (R37, R60). A deadline or an expiry that is not held, or not reached, is
not delivered (R18; the model's convention, log 2). -/
def Obligations.ExpiriesOfAChannelDeviate : Prop :=
  ∀ (s : State) (c : Fin 8),
    (∀ (k : Nat) (start due : Time) (cfg : ChannelConfig) (p : Pattern) (st : PatternStep),
      s.channels[c].state = .tracking k start due → s.channels[c].config = some cfg →
      s.patterns[cfg.pattern] = some p → p.steps[k]? = some st →
      (reached s.time due = false → exec (.stepDeadline c) s = .next s) ∧
      (reached s.time due = true →
        exec (.stepDeadline c) s =
          .next (State.handleDeviation
            { s with
              channels := s.channels.set c
                { s.channels[c] with closure := some { step := k, closing := after start st.max } } }
            c { kind := .late, step := some k, measured := some st.max, time := after start st.max }))) ∧
    (∀ due : Time, s.channels[c].state = .seeking (some due) →
      (reached s.time due = false → exec (.acquireExpiry c) s = .next s) ∧
      (reached s.time due = true →
        exec (.acquireExpiry c) s =
          .next (s.handleDeviation c { kind := .noSignal, step := none, measured := none, time := s.time }))) ∧
    ((∀ k start due, s.channels[c].state ≠ .tracking k start due) → exec (.stepDeadline c) s = .next s) ∧
    ((∀ due, s.channels[c].state ≠ .seeking (some due)) → exec (.acquireExpiry c) s = .next s)

/-- The handling of a deviation: strikes rise by one, the good run returns to 0, the count of the kind rises, the deviation is
recorded; below the limit a DEVIATION notice is offered when the kind is in the mask and the channel seeks; at the limit it
trips: TRIPPED, then its claims in index order, then the TRIP notice with their number (R61, R63, R64, R67, R68). -/
def Obligations.ADeviationStrikesAndMayTrip : Prop :=
  ∀ (s : State) (c : Fin 8) (dev : Deviation) (cfg : ChannelConfig) (struck : Channel),
    s.channels[c].config = some cfg →
    struck = { s.channels[c] with
      strikes := s.channels[c].strikes + 1
      goodRun := 0
      counts :=
        { early := if dev.kind = .early then satSucc s.channels[c].counts.early else s.channels[c].counts.early
          late := if dev.kind = .late then satSucc s.channels[c].counts.late else s.channels[c].counts.late
          noSignal :=
            if dev.kind = .noSignal then satSucc s.channels[c].counts.noSignal else s.channels[c].counts.noSignal
          injected :=
            if dev.kind = .injected then satSucc s.channels[c].counts.injected else s.channels[c].counts.injected }
      last := some dev } →
    (s.channels[c].strikes + 1 ≠ cfg.strikeLimit →
      s.handleDeviation c dev =
        { s with
          channels := s.channels.set c { struck with state := .seeking (cfg.acquire.map (after s.time)) }
          queue :=
            if reports cfg.report dev.kind = true then
              s.queue.offer dev.time (.trip (.channel c)) (.deviation dev.kind dev.step dev.measured struck.strikes)
            else s.queue }) ∧
    (s.channels[c].strikes + 1 = cfg.strikeLimit →
      s.handleDeviation c dev =
        { s.makeClaims (.channel c) with
          channels := s.channels.set c { struck with state := .tripped }
          queue := { s.queue with
            notices := s.queue.notices ++
              [{ sequence := s.queue.nextSeq, time := dev.time, source := .trip (.channel c)
                 body := .tripChannel dev.kind dev.step dev.measured struck.strikes
                  ((List.finRange 32).countP fun i => s.reactions[i].any fun r => r.source = .channel c) }]
            nextSeq := s.queue.nextSeq + 1 } })

/-- An edge stamped at the close of the window and the step deadline, at one device time, lead to one state in either order: the
deadline first and then the edge, through the deadline closure, gives what the edge gives alone, after which there is no
deadline left to deliver (R66). -/
def Obligations.EdgeAndDeadlineOrdersAgree : Prop :=
  ∀ (s : State) (c : Fin 8) (level : Level) (cfg : ChannelConfig) (p : Pattern) (st : PatternStep) (k : Nat)
    (start : Time), s.Lawful → s.channels[c].state = .tracking k start s.time → s.channels[c].config = some cfg →
    s.patterns[cfg.pattern] = some p → p.steps[k]? = some st → s.channels[c].closure = none →
    ∃ d : State, exec (.stepDeadline c) s = .next d ∧
      d.edgeToChannel c level (after start st.max) = s.edgeToChannel c level (after start st.max) ∧
      exec (.stepDeadline c) (s.edgeToChannel c level (after start st.max)) =
        .next (s.edgeToChannel c level (after start st.max))

/-! Notices, claims and outputs -/

/-- An offered TRIP is always admitted, any other notice while fewer than 39 non-TRIP notices wait; an admitted notice takes the
next sequence at the end of the list, and any other is dropped and counted, nothing else changing (R109, R110). -/
def Obligations.OfferedNoticesAreAdmittedOrDropped : Prop :=
  ∀ (q : Queue) (t : Time) (src : NoticeSource) (b : NoticeBody) (n : Notice),
    n = { sequence := q.nextSeq, time := t, source := src, body := b } →
    (n.isTrip = true ∨ q.notices.countP (fun m => !m.isTrip) < 39 →
      q.offer t src b = { q with notices := q.notices ++ [n], nextSeq := q.nextSeq + 1 }) ∧
    (n.isTrip = false → 39 ≤ q.notices.countP (fun m => !m.isTrip) →
      q.offer t src b = { q with dropped := satSucc q.dropped })

/-- A trip appends, to the list of each output, a claim for each entry of the source in index order (R82); a release removes the
source's claims and leaves the others in order (R83). Each output whose list changed is handed a change as R85 tables, carried
out at once: the pending flag cleared, the drive applied, a new frame begun for DUTY and none held for a LEVEL (R96); every other
output, and the rest of the part, stays. -/
def Obligations.TripsAndReleasesMoveTheOutputs : Prop :=
  ∀ (s : State) (src : Source),
    (∀ o : Fin 6, (s.makeClaims src).claims[o] = s.claims[o] ++
      (List.finRange 32).filterMap fun i => s.reactions[i].bind fun r =>
        if r.source = src ∧ r.output = o then
          some { index := i, source := src, priority := r.priority, drive := r.drive }
        else none) ∧
    (∀ o : Fin 6, (s.releaseClaims src).claims[o] = s.claims[o].filter fun cl => cl.source ≠ src) ∧
    ∀ u : State, u = s.makeClaims src ∨ u = s.releaseClaims src →
      (∀ o : Fin 6,
        let changed (d : Drive) : Generator :=
          { s.outputs[o] with applied := d, pending := false, frameStart := if d.isDuty then some s.time else none }
        (u.claims[o] = s.claims[o] → u.outputs[o] = s.outputs[o]) ∧
        (∀ w, winner s.claims[o] = none → winner u.claims[o] = some w → u.outputs[o] = changed w.drive) ∧
        (∀ w, winner s.claims[o] = some w → winner u.claims[o] = none →
          u.outputs[o] = changed s.outputs[o].base) ∧
        (∀ w w', winner s.claims[o] = some w → winner u.claims[o] = some w' →
          u.outputs[o] = if w.drive = w'.drive then s.outputs[o] else changed w'.drive)) ∧
      u = { s with claims := u.claims, outputs := u.outputs }

/-- The winning claim has the highest priority of its list, and is the oldest of that priority; the effective drive is the
winning claim's, and the base drive with an empty list (R84). -/
def Obligations.TheWinningClaimDecides : Prop :=
  ∀ (s : State) (o : Fin 6),
    (s.claims[o] = [] → s.effective o = s.outputs[o].base) ∧
    (s.claims[o] ≠ [] → ∃ (older newer : List Claim) (w : Claim), s.claims[o] = older ++ w :: newer ∧
      winner s.claims[o] = some w ∧ (∀ cl ∈ older, cl.priority < w.priority) ∧
      (∀ cl ∈ newer, cl.priority ≤ w.priority) ∧ s.effective o = w.drive)

/-- The frame-end expiry begins the next frame at the expiry time, of the waiting base when the flag is set, and clears the flag
(R95, with a base of DUTY by R100); before it, and without a frame, there is no expiry to deliver (R18; the
model's convention, log 2). -/
def Obligations.FramesFollowWithoutGap : Prop :=
  ∀ (s : State) (o : Fin 6) (g : Generator), g = s.outputs[o] →
    (g.frameStart = none → exec (.frameEndExpiry o) s = .next s) ∧
    (∀ start ends : Time, g.frameStart = some start → ends = after start (256 * 2 ^ g.rate.val) →
      (reached s.time ends = false → exec (.frameEndExpiry o) s = .next s) ∧
      (reached s.time ends = true → g.pending = false →
        exec (.frameEndExpiry o) s = .next { s with outputs := s.outputs.set o { g with frameStart := some ends } }) ∧
      (reached s.time ends = true → g.pending = true → g.base.isDuty = true →
        exec (.frameEndExpiry o) s =
          .next { s with
            outputs := s.outputs.set o { g with applied := g.base, pending := false, frameStart := some ends } }))

/-- A frame of DUTY d: sub-period i is high for c steps, and one more when rev(i) is below f, with c = d div 16, f = d mod 16 and
rev the reversal of four bits; it is high for d of its 4,096 steps (R94). An output line: low in RESET and STARTING (R104); in
RUNNING at the level of a LEVEL drive, and under a DUTY drive high in the steps of the frame, each of 62.5 ns times 2^r, counted
from the frame start (R93, R94, R102). -/
def Obligations.TheOutputLineFollowsItsDrive : Prop :=
  ((List.range 16).map rev4 = [0, 8, 4, 12, 2, 10, 6, 14, 1, 9, 5, 13, 3, 11, 7, 15] ∧
     ∀ d : BitVec 12,
       (∀ i : Nat, i < 16 → highCount d i = d.toNat / 16 + (if rev4 i < d.toNat % 16 then 1 else 0) ∧
         highCount d i ≤ 256 ∧
         ∀ j : Nat, j < 256 → (highInStep d (256 * i + j) = true ↔ j < highCount d i)) ∧
       ((List.range 16).map (highCount d)).sum = d.toNat) ∧
  ∀ (s : State) (o : Fin 6) (x : Nat),
    (s.device ≠ .running → s.outLevel o x = .low) ∧
    (∀ level : Level, s.device = .running → s.outputs[o].applied = .level level → s.outLevel o x = level) ∧
    (∀ (d : BitVec 12) (start : Time), s.device = .running → s.outputs[o].applied = .duty d →
      s.outputs[o].frameStart = some start →
      (s.outLevel o x = .high ↔
        highInStep d ((elapsed s.time start * 16 + x) / 2 ^ s.outputs[o].rate.val % 4096) = true))
end

