-- ==== Sys2Proof/Laws/State.lean ====
section
/-! SUPPORT. One lemma per field for each update of the state, all true by definition: what the update leaves, and what it
writes; and reading back a record that has been written. -/

namespace Sys2Proof.Machine

variable (s : State)

/-! `putPattern` -/

@[simp] theorem device_putPattern (id : Fin 16) (p : Option Pattern) : (s.putPattern id p).device = s.device := rfl
@[simp] theorem cause_putPattern (id : Fin 16) (p : Option Pattern) : (s.putPattern id p).cause = s.cause := rfl
@[simp] theorem resetn_putPattern (id : Fin 16) (p : Option Pattern) : (s.putPattern id p).resetn = s.resetn := rfl
@[simp] theorem time_putPattern (id : Fin 16) (p : Option Pattern) : (s.putPattern id p).time = s.time := rfl
@[simp] theorem planWritten_putPattern (id : Fin 16) (p : Option Pattern) : (s.putPattern id p).planWritten = s.planWritten := rfl
@[simp] theorem patterns_putPattern (id : Fin 16) (p : Option Pattern) : (s.putPattern id p).patterns = s.patterns.set id p := rfl
@[simp] theorem lines_putPattern (id : Fin 16) (p : Option Pattern) : (s.putPattern id p).lines = s.lines := rfl
@[simp] theorem channels_putPattern (id : Fin 16) (p : Option Pattern) : (s.putPattern id p).channels = s.channels := rfl
@[simp] theorem reactions_putPattern (id : Fin 16) (p : Option Pattern) : (s.putPattern id p).reactions = s.reactions := rfl
@[simp] theorem claims_putPattern (id : Fin 16) (p : Option Pattern) : (s.putPattern id p).claims = s.claims := rfl
@[simp] theorem outputs_putPattern (id : Fin 16) (p : Option Pattern) : (s.putPattern id p).outputs = s.outputs := rfl
@[simp] theorem queue_putPattern (id : Fin 16) (p : Option Pattern) : (s.putPattern id p).queue = s.queue := rfl
@[simp] theorem store_putPattern (id : Fin 16) (p : Option Pattern) : (s.putPattern id p).store = s.store := rfl
@[simp] theorem link_putPattern (id : Fin 16) (p : Option Pattern) : (s.putPattern id p).link = s.link := rfl
@[simp] theorem draws_putPattern (id : Fin 16) (p : Option Pattern) : (s.putPattern id p).draws = s.draws := rfl
@[simp] theorem pending_putPattern (id : Fin 16) (p : Option Pattern) : (s.putPattern id p).pending = s.pending := rfl

/-! `putLine` -/

@[simp] theorem device_putLine (l : Fin 8) (x : Line) : (s.putLine l x).device = s.device := rfl
@[simp] theorem cause_putLine (l : Fin 8) (x : Line) : (s.putLine l x).cause = s.cause := rfl
@[simp] theorem resetn_putLine (l : Fin 8) (x : Line) : (s.putLine l x).resetn = s.resetn := rfl
@[simp] theorem time_putLine (l : Fin 8) (x : Line) : (s.putLine l x).time = s.time := rfl
@[simp] theorem planWritten_putLine (l : Fin 8) (x : Line) : (s.putLine l x).planWritten = s.planWritten := rfl
@[simp] theorem patterns_putLine (l : Fin 8) (x : Line) : (s.putLine l x).patterns = s.patterns := rfl
@[simp] theorem lines_putLine (l : Fin 8) (x : Line) : (s.putLine l x).lines = s.lines.set l x := rfl
@[simp] theorem channels_putLine (l : Fin 8) (x : Line) : (s.putLine l x).channels = s.channels := rfl
@[simp] theorem reactions_putLine (l : Fin 8) (x : Line) : (s.putLine l x).reactions = s.reactions := rfl
@[simp] theorem claims_putLine (l : Fin 8) (x : Line) : (s.putLine l x).claims = s.claims := rfl
@[simp] theorem outputs_putLine (l : Fin 8) (x : Line) : (s.putLine l x).outputs = s.outputs := rfl
@[simp] theorem queue_putLine (l : Fin 8) (x : Line) : (s.putLine l x).queue = s.queue := rfl
@[simp] theorem store_putLine (l : Fin 8) (x : Line) : (s.putLine l x).store = s.store := rfl
@[simp] theorem link_putLine (l : Fin 8) (x : Line) : (s.putLine l x).link = s.link := rfl
@[simp] theorem draws_putLine (l : Fin 8) (x : Line) : (s.putLine l x).draws = s.draws := rfl
@[simp] theorem pending_putLine (l : Fin 8) (x : Line) : (s.putLine l x).pending = s.pending := rfl

/-! `putChannel` -/

@[simp] theorem device_putChannel (c : Fin 8) (x : Channel) : (s.putChannel c x).device = s.device := rfl
@[simp] theorem cause_putChannel (c : Fin 8) (x : Channel) : (s.putChannel c x).cause = s.cause := rfl
@[simp] theorem resetn_putChannel (c : Fin 8) (x : Channel) : (s.putChannel c x).resetn = s.resetn := rfl
@[simp] theorem time_putChannel (c : Fin 8) (x : Channel) : (s.putChannel c x).time = s.time := rfl
@[simp] theorem planWritten_putChannel (c : Fin 8) (x : Channel) : (s.putChannel c x).planWritten = s.planWritten := rfl
@[simp] theorem patterns_putChannel (c : Fin 8) (x : Channel) : (s.putChannel c x).patterns = s.patterns := rfl
@[simp] theorem lines_putChannel (c : Fin 8) (x : Channel) : (s.putChannel c x).lines = s.lines := rfl
@[simp] theorem channels_putChannel (c : Fin 8) (x : Channel) : (s.putChannel c x).channels = s.channels.set c x := rfl
@[simp] theorem reactions_putChannel (c : Fin 8) (x : Channel) : (s.putChannel c x).reactions = s.reactions := rfl
@[simp] theorem claims_putChannel (c : Fin 8) (x : Channel) : (s.putChannel c x).claims = s.claims := rfl
@[simp] theorem outputs_putChannel (c : Fin 8) (x : Channel) : (s.putChannel c x).outputs = s.outputs := rfl
@[simp] theorem queue_putChannel (c : Fin 8) (x : Channel) : (s.putChannel c x).queue = s.queue := rfl
@[simp] theorem store_putChannel (c : Fin 8) (x : Channel) : (s.putChannel c x).store = s.store := rfl
@[simp] theorem link_putChannel (c : Fin 8) (x : Channel) : (s.putChannel c x).link = s.link := rfl
@[simp] theorem draws_putChannel (c : Fin 8) (x : Channel) : (s.putChannel c x).draws = s.draws := rfl
@[simp] theorem pending_putChannel (c : Fin 8) (x : Channel) : (s.putChannel c x).pending = s.pending := rfl

/-! `putReaction` -/

@[simp] theorem device_putReaction (i : Fin 32) (x : Option Reaction) : (s.putReaction i x).device = s.device := rfl
@[simp] theorem cause_putReaction (i : Fin 32) (x : Option Reaction) : (s.putReaction i x).cause = s.cause := rfl
@[simp] theorem resetn_putReaction (i : Fin 32) (x : Option Reaction) : (s.putReaction i x).resetn = s.resetn := rfl
@[simp] theorem time_putReaction (i : Fin 32) (x : Option Reaction) : (s.putReaction i x).time = s.time := rfl
@[simp] theorem planWritten_putReaction (i : Fin 32) (x : Option Reaction) : (s.putReaction i x).planWritten = s.planWritten := rfl
@[simp] theorem patterns_putReaction (i : Fin 32) (x : Option Reaction) : (s.putReaction i x).patterns = s.patterns := rfl
@[simp] theorem lines_putReaction (i : Fin 32) (x : Option Reaction) : (s.putReaction i x).lines = s.lines := rfl
@[simp] theorem channels_putReaction (i : Fin 32) (x : Option Reaction) : (s.putReaction i x).channels = s.channels := rfl
@[simp] theorem reactions_putReaction (i : Fin 32) (x : Option Reaction) : (s.putReaction i x).reactions = s.reactions.set i x := rfl
@[simp] theorem claims_putReaction (i : Fin 32) (x : Option Reaction) : (s.putReaction i x).claims = s.claims := rfl
@[simp] theorem outputs_putReaction (i : Fin 32) (x : Option Reaction) : (s.putReaction i x).outputs = s.outputs := rfl
@[simp] theorem queue_putReaction (i : Fin 32) (x : Option Reaction) : (s.putReaction i x).queue = s.queue := rfl
@[simp] theorem store_putReaction (i : Fin 32) (x : Option Reaction) : (s.putReaction i x).store = s.store := rfl
@[simp] theorem link_putReaction (i : Fin 32) (x : Option Reaction) : (s.putReaction i x).link = s.link := rfl
@[simp] theorem draws_putReaction (i : Fin 32) (x : Option Reaction) : (s.putReaction i x).draws = s.draws := rfl
@[simp] theorem pending_putReaction (i : Fin 32) (x : Option Reaction) : (s.putReaction i x).pending = s.pending := rfl

/-! `putOutput` -/

@[simp] theorem device_putOutput (o : Fin 6) (x : Generator) : (s.putOutput o x).device = s.device := rfl
@[simp] theorem cause_putOutput (o : Fin 6) (x : Generator) : (s.putOutput o x).cause = s.cause := rfl
@[simp] theorem resetn_putOutput (o : Fin 6) (x : Generator) : (s.putOutput o x).resetn = s.resetn := rfl
@[simp] theorem time_putOutput (o : Fin 6) (x : Generator) : (s.putOutput o x).time = s.time := rfl
@[simp] theorem planWritten_putOutput (o : Fin 6) (x : Generator) : (s.putOutput o x).planWritten = s.planWritten := rfl
@[simp] theorem patterns_putOutput (o : Fin 6) (x : Generator) : (s.putOutput o x).patterns = s.patterns := rfl
@[simp] theorem lines_putOutput (o : Fin 6) (x : Generator) : (s.putOutput o x).lines = s.lines := rfl
@[simp] theorem channels_putOutput (o : Fin 6) (x : Generator) : (s.putOutput o x).channels = s.channels := rfl
@[simp] theorem reactions_putOutput (o : Fin 6) (x : Generator) : (s.putOutput o x).reactions = s.reactions := rfl
@[simp] theorem claims_putOutput (o : Fin 6) (x : Generator) : (s.putOutput o x).claims = s.claims := rfl
@[simp] theorem outputs_putOutput (o : Fin 6) (x : Generator) : (s.putOutput o x).outputs = s.outputs.set o x := rfl
@[simp] theorem queue_putOutput (o : Fin 6) (x : Generator) : (s.putOutput o x).queue = s.queue := rfl
@[simp] theorem store_putOutput (o : Fin 6) (x : Generator) : (s.putOutput o x).store = s.store := rfl
@[simp] theorem link_putOutput (o : Fin 6) (x : Generator) : (s.putOutput o x).link = s.link := rfl
@[simp] theorem draws_putOutput (o : Fin 6) (x : Generator) : (s.putOutput o x).draws = s.draws := rfl
@[simp] theorem pending_putOutput (o : Fin 6) (x : Generator) : (s.putOutput o x).pending = s.pending := rfl

/-! `offer` -/

@[simp] theorem device_offer (t : Time) (src : NoticeSource) (b : NoticeBody) : (s.offer t src b).device = s.device := rfl
@[simp] theorem cause_offer (t : Time) (src : NoticeSource) (b : NoticeBody) : (s.offer t src b).cause = s.cause := rfl
@[simp] theorem resetn_offer (t : Time) (src : NoticeSource) (b : NoticeBody) : (s.offer t src b).resetn = s.resetn := rfl
@[simp] theorem time_offer (t : Time) (src : NoticeSource) (b : NoticeBody) : (s.offer t src b).time = s.time := rfl
@[simp] theorem planWritten_offer (t : Time) (src : NoticeSource) (b : NoticeBody) : (s.offer t src b).planWritten = s.planWritten := rfl
@[simp] theorem patterns_offer (t : Time) (src : NoticeSource) (b : NoticeBody) : (s.offer t src b).patterns = s.patterns := rfl
@[simp] theorem lines_offer (t : Time) (src : NoticeSource) (b : NoticeBody) : (s.offer t src b).lines = s.lines := rfl
@[simp] theorem channels_offer (t : Time) (src : NoticeSource) (b : NoticeBody) : (s.offer t src b).channels = s.channels := rfl
@[simp] theorem reactions_offer (t : Time) (src : NoticeSource) (b : NoticeBody) : (s.offer t src b).reactions = s.reactions := rfl
@[simp] theorem claims_offer (t : Time) (src : NoticeSource) (b : NoticeBody) : (s.offer t src b).claims = s.claims := rfl
@[simp] theorem outputs_offer (t : Time) (src : NoticeSource) (b : NoticeBody) : (s.offer t src b).outputs = s.outputs := rfl
@[simp] theorem queue_offer (t : Time) (src : NoticeSource) (b : NoticeBody) : (s.offer t src b).queue = s.queue.offer t src b := rfl
@[simp] theorem store_offer (t : Time) (src : NoticeSource) (b : NoticeBody) : (s.offer t src b).store = s.store := rfl
@[simp] theorem link_offer (t : Time) (src : NoticeSource) (b : NoticeBody) : (s.offer t src b).link = s.link := rfl
@[simp] theorem draws_offer (t : Time) (src : NoticeSource) (b : NoticeBody) : (s.offer t src b).draws = s.draws := rfl
@[simp] theorem pending_offer (t : Time) (src : NoticeSource) (b : NoticeBody) : (s.offer t src b).pending = s.pending := rfl

/-! `drawn` -/

@[simp] theorem device_drawn : (s.drawn).device = s.device := rfl
@[simp] theorem cause_drawn : (s.drawn).cause = s.cause := rfl
@[simp] theorem resetn_drawn : (s.drawn).resetn = s.resetn := rfl
@[simp] theorem time_drawn : (s.drawn).time = s.time := rfl
@[simp] theorem planWritten_drawn : (s.drawn).planWritten = s.planWritten := rfl
@[simp] theorem patterns_drawn : (s.drawn).patterns = s.patterns := rfl
@[simp] theorem lines_drawn : (s.drawn).lines = s.lines := rfl
@[simp] theorem channels_drawn : (s.drawn).channels = s.channels := rfl
@[simp] theorem reactions_drawn : (s.drawn).reactions = s.reactions := rfl
@[simp] theorem claims_drawn : (s.drawn).claims = s.claims := rfl
@[simp] theorem outputs_drawn : (s.drawn).outputs = s.outputs := rfl
@[simp] theorem queue_drawn : (s.drawn).queue = s.queue := rfl
@[simp] theorem store_drawn : (s.drawn).store = s.store := rfl
@[simp] theorem link_drawn : (s.drawn).link = s.link := rfl
@[simp] theorem draws_drawn : (s.drawn).draws = s.draws + 1 := rfl
@[simp] theorem pending_drawn : (s.drawn).pending = s.pending := rfl

/-! `setClaims` and the trip and release hand-overs -/

@[simp] theorem device_setClaims (new : Vector (List Claim) 6) : (s.setClaims new).device = s.device := rfl
@[simp] theorem cause_setClaims (new : Vector (List Claim) 6) : (s.setClaims new).cause = s.cause := rfl
@[simp] theorem resetn_setClaims (new : Vector (List Claim) 6) : (s.setClaims new).resetn = s.resetn := rfl
@[simp] theorem time_setClaims (new : Vector (List Claim) 6) : (s.setClaims new).time = s.time := rfl
@[simp] theorem planWritten_setClaims (new : Vector (List Claim) 6) : (s.setClaims new).planWritten = s.planWritten := rfl
@[simp] theorem patterns_setClaims (new : Vector (List Claim) 6) : (s.setClaims new).patterns = s.patterns := rfl
@[simp] theorem lines_setClaims (new : Vector (List Claim) 6) : (s.setClaims new).lines = s.lines := rfl
@[simp] theorem channels_setClaims (new : Vector (List Claim) 6) : (s.setClaims new).channels = s.channels := rfl
@[simp] theorem reactions_setClaims (new : Vector (List Claim) 6) : (s.setClaims new).reactions = s.reactions := rfl
@[simp] theorem queue_setClaims (new : Vector (List Claim) 6) : (s.setClaims new).queue = s.queue := rfl
@[simp] theorem store_setClaims (new : Vector (List Claim) 6) : (s.setClaims new).store = s.store := rfl
@[simp] theorem link_setClaims (new : Vector (List Claim) 6) : (s.setClaims new).link = s.link := rfl
@[simp] theorem draws_setClaims (new : Vector (List Claim) 6) : (s.setClaims new).draws = s.draws := rfl
@[simp] theorem pending_setClaims (new : Vector (List Claim) 6) : (s.setClaims new).pending = s.pending := rfl
@[simp] theorem claims_setClaims (new : Vector (List Claim) 6) : (s.setClaims new).claims = new := rfl
@[simp] theorem device_makeClaims (src : Source) : (s.makeClaims src).device = s.device := rfl
@[simp] theorem cause_makeClaims (src : Source) : (s.makeClaims src).cause = s.cause := rfl
@[simp] theorem resetn_makeClaims (src : Source) : (s.makeClaims src).resetn = s.resetn := rfl
@[simp] theorem time_makeClaims (src : Source) : (s.makeClaims src).time = s.time := rfl
@[simp] theorem planWritten_makeClaims (src : Source) : (s.makeClaims src).planWritten = s.planWritten := rfl
@[simp] theorem patterns_makeClaims (src : Source) : (s.makeClaims src).patterns = s.patterns := rfl
@[simp] theorem lines_makeClaims (src : Source) : (s.makeClaims src).lines = s.lines := rfl
@[simp] theorem channels_makeClaims (src : Source) : (s.makeClaims src).channels = s.channels := rfl
@[simp] theorem reactions_makeClaims (src : Source) : (s.makeClaims src).reactions = s.reactions := rfl
@[simp] theorem queue_makeClaims (src : Source) : (s.makeClaims src).queue = s.queue := rfl
@[simp] theorem store_makeClaims (src : Source) : (s.makeClaims src).store = s.store := rfl
@[simp] theorem link_makeClaims (src : Source) : (s.makeClaims src).link = s.link := rfl
@[simp] theorem draws_makeClaims (src : Source) : (s.makeClaims src).draws = s.draws := rfl
@[simp] theorem pending_makeClaims (src : Source) : (s.makeClaims src).pending = s.pending := rfl
@[simp] theorem device_releaseClaims (src : Source) : (s.releaseClaims src).device = s.device := rfl
@[simp] theorem cause_releaseClaims (src : Source) : (s.releaseClaims src).cause = s.cause := rfl
@[simp] theorem resetn_releaseClaims (src : Source) : (s.releaseClaims src).resetn = s.resetn := rfl
@[simp] theorem time_releaseClaims (src : Source) : (s.releaseClaims src).time = s.time := rfl
@[simp] theorem planWritten_releaseClaims (src : Source) : (s.releaseClaims src).planWritten = s.planWritten := rfl
@[simp] theorem patterns_releaseClaims (src : Source) : (s.releaseClaims src).patterns = s.patterns := rfl
@[simp] theorem lines_releaseClaims (src : Source) : (s.releaseClaims src).lines = s.lines := rfl
@[simp] theorem channels_releaseClaims (src : Source) : (s.releaseClaims src).channels = s.channels := rfl
@[simp] theorem reactions_releaseClaims (src : Source) : (s.releaseClaims src).reactions = s.reactions := rfl
@[simp] theorem queue_releaseClaims (src : Source) : (s.releaseClaims src).queue = s.queue := rfl
@[simp] theorem store_releaseClaims (src : Source) : (s.releaseClaims src).store = s.store := rfl
@[simp] theorem link_releaseClaims (src : Source) : (s.releaseClaims src).link = s.link := rfl
@[simp] theorem draws_releaseClaims (src : Source) : (s.releaseClaims src).draws = s.draws := rfl
@[simp] theorem pending_releaseClaims (src : Source) : (s.releaseClaims src).pending = s.pending := rfl

/-! `replied` -/

@[simp] theorem device_replied (rest : List Frame) (r : Reply) : (s.replied rest r).device = s.device := rfl
@[simp] theorem cause_replied (rest : List Frame) (r : Reply) : (s.replied rest r).cause = s.cause := rfl
@[simp] theorem resetn_replied (rest : List Frame) (r : Reply) : (s.replied rest r).resetn = s.resetn := rfl
@[simp] theorem time_replied (rest : List Frame) (r : Reply) : (s.replied rest r).time = s.time := rfl
@[simp] theorem planWritten_replied (rest : List Frame) (r : Reply) : (s.replied rest r).planWritten = s.planWritten := rfl
@[simp] theorem patterns_replied (rest : List Frame) (r : Reply) : (s.replied rest r).patterns = s.patterns := rfl
@[simp] theorem lines_replied (rest : List Frame) (r : Reply) : (s.replied rest r).lines = s.lines := rfl
@[simp] theorem channels_replied (rest : List Frame) (r : Reply) : (s.replied rest r).channels = s.channels := rfl
@[simp] theorem reactions_replied (rest : List Frame) (r : Reply) : (s.replied rest r).reactions = s.reactions := rfl
@[simp] theorem claims_replied (rest : List Frame) (r : Reply) : (s.replied rest r).claims = s.claims := rfl
@[simp] theorem outputs_replied (rest : List Frame) (r : Reply) : (s.replied rest r).outputs = s.outputs := rfl
@[simp] theorem queue_replied (rest : List Frame) (r : Reply) : (s.replied rest r).queue = s.queue := rfl
@[simp] theorem store_replied (rest : List Frame) (r : Reply) : (s.replied rest r).store = s.store := rfl
@[simp] theorem draws_replied (rest : List Frame) (r : Reply) : (s.replied rest r).draws = s.draws := rfl
@[simp] theorem pending_replied (rest : List Frame) (r : Reply) : (s.replied rest r).pending = s.pending := rfl

/-! Reading back -/

theorem patterns_get_putPattern_self (id : Fin 16) (x : Option Pattern) : (s.putPattern id x).patterns[id] = x := by
  simp

theorem patterns_get_putPattern_ne (id j : Fin 16) (x : Option Pattern) (h : id ≠ j) : (s.putPattern id x).patterns[j] = s.patterns[j] := by
  have : id.val ≠ j.val := fun e => h (Fin.ext e)
  simp [this]

theorem lines_get_putLine_self (l : Fin 8) (x : Line) : (s.putLine l x).lines[l] = x := by
  simp

theorem lines_get_putLine_ne (l j : Fin 8) (x : Line) (h : l ≠ j) : (s.putLine l x).lines[j] = s.lines[j] := by
  have : l.val ≠ j.val := fun e => h (Fin.ext e)
  simp [this]

theorem channels_get_putChannel_self (c : Fin 8) (x : Channel) : (s.putChannel c x).channels[c] = x := by
  simp

theorem channels_get_putChannel_ne (c j : Fin 8) (x : Channel) (h : c ≠ j) : (s.putChannel c x).channels[j] = s.channels[j] := by
  have : c.val ≠ j.val := fun e => h (Fin.ext e)
  simp [this]

theorem reactions_get_putReaction_self (i : Fin 32) (x : Option Reaction) : (s.putReaction i x).reactions[i] = x := by
  simp

theorem reactions_get_putReaction_ne (i j : Fin 32) (x : Option Reaction) (h : i ≠ j) : (s.putReaction i x).reactions[j] = s.reactions[j] := by
  have : i.val ≠ j.val := fun e => h (Fin.ext e)
  simp [this]

theorem outputs_get_putOutput_self (o : Fin 6) (x : Generator) : (s.putOutput o x).outputs[o] = x := by
  simp

theorem outputs_get_putOutput_ne (o j : Fin 6) (x : Generator) (h : o ≠ j) : (s.putOutput o x).outputs[j] = s.outputs[j] := by
  have : o.val ≠ j.val := fun e => h (Fin.ext e)
  simp [this]

end Sys2Proof.Machine
end

