-- ==== Sys2Proof/Laws/Arbiter.lean ====
section
/-! SUPPORT. What the arbiter and the generators can do: the hand-over of a changed list, what an output that is handed nothing
keeps, and the two forms of applying a drive. -/

namespace Sys2Proof.Machine

/-- An output after a trip or a release. -/
theorem output_setClaims (s : State) (new : Vector (List Claim) 6) (o : Fin 6) :
    (s.setClaims new).outputs[o] =
      match handOver s.outputs[o].base s.claims[o] new[o] with
      | some d => s.outputs[o].immediate s.time d
      | none => s.outputs[o] := by
  unfold State.setClaims
  exact Vector.getElem_ofFn o.isLt

/-- The claim lists after a trip: each list, then the new claims of the source on that output. -/
theorem claims_makeClaims (s : State) (src : Source) (o : Fin 6) :
    (s.makeClaims src).claims[o] = s.claims[o] ++ s.newClaims src o := by
  unfold State.makeClaims State.setClaims
  exact Vector.getElem_ofFn o.isLt

/-- The claim lists after a release: the claims of the other sources, in their order. -/
theorem claims_releaseClaims (s : State) (src : Source) (o : Fin 6) :
    (s.releaseClaims src).claims[o] = s.claims[o].filter fun c => c.source ≠ src := by
  unfold State.releaseClaims State.setClaims
  exact Vector.getElem_ofFn o.isLt

/-- A claim that a trip places copies an entry of the source on that output. -/
theorem mem_newClaims (s : State) (src : Source) (o : Fin 6) (cl : Claim) :
    cl ∈ s.newClaims src o ↔
      s.reactions[cl.index] = some { source := src, output := o, drive := cl.drive, priority := cl.priority } ∧
        cl.source = src := by
  unfold State.newClaims State.claimFrom
  rw [List.mem_filterMap]
  constructor
  · rintro ⟨i, -, h⟩
    split at h
    · next r hr =>
      split at h
      · next hc =>
        obtain ⟨rfl, rfl⟩ := hc
        simp only [Option.some.injEq] at h
        subst h
        exact ⟨hr, rfl⟩
      · cases h
    · cases h
  · rintro ⟨h, rfl⟩
    refine ⟨cl.index, List.mem_finRange _, ?_⟩
    rw [h]
    simp

/-- A list that did not change hands nothing. -/
theorem handOver_same (base : Drive) (l : List Claim) : handOver base l l = none := by
  unfold handOver
  cases winner l <;> simp

theorem winner_none_iff (l : List Claim) : winner l = none ↔ l = [] := by
  cases l with
  | nil => simp [winner]
  | cons c cs =>
    simp only [winner, reduceCtorEq, iff_false]
    cases winner cs with
    | none => simp
    | some w => simp only; split <;> simp

/-- The winning claim is one of the list. -/
theorem winner_mem (l : List Claim) (w : Claim) (h : winner l = some w) : w ∈ l := by
  induction l generalizing w with
  | nil => simp [winner] at h
  | cons c cs ih =>
    simp only [winner] at h
    cases hw : winner cs with
    | none => simp_all
    | some v =>
      rw [hw] at h
      simp only at h
      split at h
      · exact List.mem_cons_of_mem _ (ih w (hw.trans h))
      · simp_all

/-- No claim of the list has a higher priority than the winning one. -/
theorem winner_max (l : List Claim) (w : Claim) (h : winner l = some w) : ∀ c ∈ l, c.priority ≤ w.priority := by
  induction l generalizing w with
  | nil => simp
  | cons c cs ih =>
    simp only [winner] at h
    cases hw : winner cs with
    | none =>
      have : cs = [] := (winner_none_iff cs).1 hw
      simp_all
    | some v =>
      rw [hw] at h
      simp only at h
      have hv := ih v hw
      split at h
      · next hlt =>
        simp only [Option.some.injEq] at h
        subst h
        intro d hd
        rcases List.mem_cons.1 hd with rfl | hd
        · exact Fin.le_of_lt hlt
        · exact hv d hd
      · next hge =>
        simp only [Option.some.injEq] at h
        subst h
        intro d hd
        rcases List.mem_cons.1 hd with rfl | hd
        · exact Fin.le_refl _
        · exact Fin.le_trans (hv d hd) (Fin.not_lt.1 hge)

/-- A drive applied is the applied drive; the base and the rate stay. -/
@[simp] theorem applied_immediate (g : Generator) (now : Time) (d : Drive) : (g.immediate now d).applied = d := rfl
@[simp] theorem base_immediate (g : Generator) (now : Time) (d : Drive) : (g.immediate now d).base = g.base := rfl
@[simp] theorem rate_immediate (g : Generator) (now : Time) (d : Drive) : (g.immediate now d).rate = g.rate := rfl
@[simp] theorem pending_immediate (g : Generator) (now : Time) (d : Drive) : (g.immediate now d).pending = false := rfl
@[simp] theorem frameStart_immediate (g : Generator) (now : Time) (d : Drive) :
    (g.immediate now d).frameStart = if d.isDuty then some now else none := rfl

end Sys2Proof.Machine
end

