-- ==== Sys2Proof/Laws/Link.lean ====
section
/-! SUPPORT. What the Link Interface can do: a reply placed in the queue, a frame admitted, and how a request that the executor
takes is answered. -/

namespace Sys2Proof.Machine

variable (k : Link) (now : Time)

theorem push_eq (r : Reply) :
    k.push now r =
      { k with replies := k.replies ++ [r], sendStart := if k.replies = [] then some now else k.sendStart } := by
  unfold Link.push
  cases k.replies <;> rfl

theorem enqueue_room (f : Frame) (h : k.inbox.length < 2) : k.enqueue now f = { k with inbox := k.inbox ++ [f] } :=
  if_pos h

theorem enqueue_busy (f : Frame) (h : 2 ≤ k.inbox.length) (hr : k.replies.length < 4) :
    k.enqueue now f =
      { k with busy := satSucc k.busy }.push now { tag := f.tag, status := .busy, data := [], thenReset := false } :=
  (if_neg (Nat.not_lt.2 h)).trans (if_pos hr)

theorem enqueue_lost (f : Frame) (h : 2 ≤ k.inbox.length) (hr : 4 ≤ k.replies.length) :
    k.enqueue now f = { k with busy := satSucc k.busy, errors := satSucc k.errors } :=
  (if_neg (Nat.not_lt.2 h)).trans (if_neg (Nat.not_lt.2 hr))

theorem executorReady_iff :
    k.executorReady = true ↔ k.replies.length < 4 ∧ ∀ r ∈ k.replies, r.thenReset = false := by
  unfold Link.executorReady
  rw [Bool.and_eq_true, decide_eq_true_eq, Bool.not_eq_true', List.any_eq_false]
  simp only [Bool.not_eq_true]

/-- A frame that the executor takes leaves the inbox and is carried out, and its reply is placed after the effect. -/
theorem request_of_takes (s : State) (f : Frame) (rest : List Frame) (carryOut : State → Answer) (h : s.Takes f rest) :
    s.request f carryOut =
      State.answer { s with link := { s.link with inbox := rest } } f.tag
        (carryOut { s with link := { s.link with inbox := rest } }) := by
  obtain ⟨hd, hi, hr, hn⟩ := h
  have hready : s.link.executorReady = true := (executorReady_iff s.link).2 ⟨hr, hn⟩
  unfold State.request
  rw [if_neg hd]
  have hc : s.link.inbox.contains f = true := by simp [hi]
  simp only [hc, if_true]
  rw [hi]
  simp only [hready, and_self, if_true]

/-- A request with one parameter whose value parses, taken in RUNNING: its own checks and effect decide the answer. -/
theorem request_oneParam {α : Type} (s : State) (f : Frame) (rest : List Frame) (b : Byte) (parse : Byte → Option α)
    (k : State → α → Answer) (x : α) (h : s.Ready f rest) (hp : parse b = some x) :
    s.request f (fun s => oneParam [b] s parse (k s)) = State.answer (s.taken rest) f.tag (k (s.taken rest) x) := by
  rw [request_of_takes s f rest _ h.1]
  have hd : s.device = .running := h.2
  simp [oneParam, hp, whenRunning, hd, State.taken]

/-- A refused request changes only the link. -/
theorem answer_refuse (s : State) (rest : List Frame) (tag : Byte) (status : Status) :
    State.answer { s with link := { s.link with inbox := rest } } tag (.refuse status) = s.refused rest tag status := by
  simp only [State.answer, push_eq, State.refused, State.replied]

/-- An accepted request that leaves the link alone: its effect, with its reply at the end of the queue. -/
theorem answer_ok (s t : State) (rest : List Frame) (tag : Byte) (data : List Byte)
    (hl : t.link = { s.link with inbox := rest }) (ht : t.time = s.time) :
    State.answer { s with link := { s.link with inbox := rest } } tag (.ok data t) =
      { t with link := (s.answered rest tag data).link } := by
  simp only [State.answer, push_eq, State.answered, State.replied, hl, ht]

/-- All that a request can do: in RESET nothing; else the frame is in the inbox or becomes good, and then it is carried out as
the oldest frame, or waits. -/
theorem request_cases (s : State) (f : Frame) (carryOut : State → Answer) :
    (s.device = .reset ∧ s.request f carryOut = s) ∨
      (s.device ≠ .reset ∧ ∃ l : Link,
        ((f ∈ s.link.inbox ∧ l = s.link) ∨ (f ∉ s.link.inbox ∧ l = s.link.goodFrame s.time f)) ∧
        (s.request f carryOut = { s with link := l } ∨
          ∃ rest, l.inbox = f :: rest ∧ l.executorReady = true ∧
            s.request f carryOut =
              State.answer { s with link := { l with inbox := rest } } f.tag
                (carryOut { s with link := { l with inbox := rest } }))) := by
  by_cases hd : s.device = .reset
  · exact .inl ⟨hd, if_pos hd⟩
  · refine .inr ⟨hd, ?_⟩
    have key : ∀ l : Link, (∀ s1 : State, s1 = { s with link := l } →
        (match s1.link.inbox with
          | g :: rest =>
            if g = f ∧ s1.link.executorReady then
              let t := { s1 with link := { s1.link with inbox := rest } }
              t.answer f.tag (carryOut t)
            else s1
          | [] => s1) = { s with link := l } ∨
        ∃ rest, l.inbox = f :: rest ∧ l.executorReady = true ∧
          (match s1.link.inbox with
            | g :: rest =>
              if g = f ∧ s1.link.executorReady then
                let t := { s1 with link := { s1.link with inbox := rest } }
                t.answer f.tag (carryOut t)
              else s1
            | [] => s1) =
            State.answer { s with link := { l with inbox := rest } } f.tag
              (carryOut { s with link := { l with inbox := rest } })) := by
      intro l s1 hs
      subst hs
      cases hi : l.inbox with
      | nil => exact .inl rfl
      | cons g rest =>
        by_cases hg : g = f ∧ l.executorReady = true
        · refine .inr ⟨rest, by rw [hg.1], hg.2, ?_⟩
          exact if_pos hg
        · exact .inl (if_neg hg)
    unfold State.request
    rw [if_neg hd]
    by_cases hc : f ∈ s.link.inbox
    · refine ⟨s.link, .inl ⟨hc, rfl⟩, ?_⟩
      have hc' : s.link.inbox.contains f = true := by simp [hc]
      simp only [hc', if_true]
      exact key s.link s rfl
    · refine ⟨s.link.goodFrame s.time f, .inr ⟨hc, rfl⟩, ?_⟩
      have hc' : s.link.inbox.contains f = false := by simp [hc]
      simp only [hc', Bool.false_eq_true, if_false]
      exact key (s.link.goodFrame s.time f) _ rfl

/-- A frame whose conditions do not hold waits: the request changes nothing. -/
theorem request_waits (s : State) (f : Frame) (carryOut : State → Answer) (hm : f ∈ s.link.inbox)
    (h : s.link.executorReady = false) : s.request f carryOut = s := by
  unfold State.request
  split
  · rfl
  · have hc : s.link.inbox.contains f = true := by simp [hm]
    simp only [hc, if_true]
    cases hi : s.link.inbox with
    | nil => rfl
    | cons g rest => simp [h]

end Sys2Proof.Machine
end

