-- ==== Sys2Proof/Laws/Ops.lean ====
section
/-! SUPPORT. What the operations over time, counts and tables can do: saturation, durations, expiries, the pool, and the pass
over the eight channels. -/

namespace Sys2Proof.Machine

/-! Counts -/

/-- A saturating count rises by one below 65,535 and stays there. -/
theorem satSucc_toNat (c : Count16) : (satSucc c).toNat = min (c.toNat + 1) 65535 := by
  unfold satSucc
  split
  · next h => subst h; rfl
  · next h =>
    have h' : c.toNat ≠ 65535 := fun e => h (BitVec.eq_of_toNat_eq e)
    have hlt : c.toNat < 65536 := c.isLt
    have : (c + 1).toNat = (c.toNat + 1) % 65536 := by simp [BitVec.toNat_add]
    omega

/-! Device time -/

theorem elapsed_self (t : Time) : elapsed t t = 0 := by simp [elapsed]

/-- A time placed a bounded wait ahead lies that wait ahead. -/
theorem elapsed_after (t : Time) (n : Nat) (h : n < 2 ^ 32) : elapsed (after t n) t = n := by
  have e : after t n - t = BitVec.ofNat 32 n := by
    unfold after
    exact add_sub_cancel_left t _
  rw [elapsed, e, BitVec.toNat_ofNat]
  exact Nat.mod_eq_of_lt h

/-- A time has been reached when it lies less than half the wrap in the past. -/
theorem reached_iff (now due : Time) : reached now due = true ↔ elapsed now due < 2 ^ 31 := by simp [reached]

theorem reached_false_iff (now due : Time) : reached now due = false ↔ 2 ^ 31 ≤ elapsed now due := by simp [reached]

theorem reached_self (t : Time) : reached t t = true := by simp [reached, elapsed]

/-- A time a bounded wait ahead, and not this one, has not been reached. -/
theorem not_reached_of_ahead (now due : Time) (n : Nat) (h : ahead now due n) (hn : n < 2 ^ 31) (hne : due ≠ now) :
    reached now due = false := by
  rw [reached_false_iff]
  unfold ahead at h
  unfold elapsed at *
  have h2 : (due - now).toNat ≠ 0 := by
    intro e
    have e' : due.toNat = now.toNat := by
      rw [BitVec.toNat_sub] at e
      have := due.isLt
      have := now.isLt
      omega
    exact hne (BitVec.eq_of_toNat_eq e')
  rw [BitVec.toNat_sub] at h h2 ⊢
  have := due.isLt
  have := now.isLt
  omega

/-- One microsecond later an expiry that has not been reached lies one microsecond nearer. -/
theorem ahead_tick (now due : Time) (n : Nat) (h : ahead now due n) (hr : reached now due = false) :
    ahead (now + 1) due n := by
  rw [reached_false_iff] at hr
  unfold ahead at *
  unfold elapsed at *
  have h1 : (now + 1).toNat = (now.toNat + 1) % 2 ^ 32 := by simp [BitVec.toNat_add]
  rw [BitVec.toNat_sub] at h hr ⊢
  rw [h1]
  have := due.isLt
  have := now.isLt
  omega

/-! The pass over the channels -/

/-- What one channel's turn keeps, the whole pass keeps. -/
theorem forChannels_induct (P : State → Prop) (s : State) (f : Fin 8 → State → State) (h0 : P s)
    (hf : ∀ c t, P t → P (f c t)) : P (s.forChannels f) := by
  unfold State.forChannels
  generalize List.finRange 8 = cs
  induction cs generalizing s with
  | nil => exact h0
  | cons c cs ih => exact ih (f c s) (hf c s h0)

/-- The pass, channel by channel. -/
theorem forChannels_eq (s : State) (f : Fin 8 → State → State) :
    s.forChannels f = f 7 (f 6 (f 5 (f 4 (f 3 (f 2 (f 1 (f 0 s))))))) := rfl

/-! An order that is a free choice -/

/-- An arrangement has the same elements. -/
theorem arrange_perm {α : Type} (n : Nat) (l : List α) : (arrange n l).Perm l := by
  induction n, l using arrange.induct with
  | case1 n => exact .refl _
  | case2 n x => exact .refl _
  | case3 n x y zs ih =>
    unfold arrange
    refine (List.perm_insertIdx x _ ?_).trans (ih.cons x)
    rw [ih.length_eq]
    exact Nat.le_of_lt_succ (Nat.mod_lt _ (by omega))

/-- Every order of a list is named by some number. -/
theorem arrange_any {α : Type} (l cs : List α) (h : cs.Perm l) : ∃ n, arrange n l = cs := by
  induction l generalizing cs with
  | nil => exact ⟨0, h.eq_nil.symm⟩
  | cons x l ih =>
    cases l with
    | nil => exact ⟨0, (List.perm_singleton.1 h).symm⟩
    | cons y zs =>
      obtain ⟨i, hi, hx⟩ := List.getElem_of_mem (h.mem_iff.2 (List.mem_cons_self ..))
      have hl : cs.length = zs.length + 2 := h.length_eq
      have hins : (cs.eraseIdx i).insertIdx i x = cs := by rw [← hx]; exact List.insertIdx_eraseIdx_getElem hi
      have hp : (cs.eraseIdx i).Perm (y :: zs) := by
        have h1 := List.perm_insertIdx x (cs.eraseIdx i) (i := i) (by rw [List.length_eraseIdx_of_lt hi]; omega)
        rw [hins] at h1
        exact (h1.symm.trans h).cons_inv
      obtain ⟨m, hm⟩ := ih _ hp
      refine ⟨i + (zs.length + 2) * m, ?_⟩
      unfold arrange
      have h1 : (i + (zs.length + 2) * m) / (zs.length + 2) = m := by
        rw [Nat.add_mul_div_left _ _ (by omega), Nat.div_eq_of_lt (by omega), Nat.zero_add]
      have h2 : (i + (zs.length + 2) * m) % (zs.length + 2) = i := by
        rw [Nat.add_mul_mod_self_left, Nat.mod_eq_of_lt (by omega)]
      rw [h1, h2, hm, hins]

/-- The operation is applied once for each channel of the list, in some order; with two channels or more a free choice has
been used. -/
theorem inSomeOrder_perm (s : State) (cs : List (Fin 8)) (f : Fin 8 → State → State) :
    ∃ ds : List (Fin 8), ds.Perm cs ∧
      s.inSomeOrder cs f =
        ds.foldl (fun t c => f c t) { s with draws := if 2 ≤ ds.length then s.draws + 1 else s.draws } := by
  cases cs with
  | nil => exact ⟨[], .refl _, rfl⟩
  | cons a cs =>
    cases cs with
    | nil => exact ⟨[a], .refl _, rfl⟩
    | cons b cs =>
      have hp := arrange_perm (Config.channelOrder s.draws) (a :: b :: cs)
      refine ⟨_, hp, ?_⟩
      rw [if_pos (by rw [hp.length_eq]; simp)]
      rfl

/-- What the free choice and each channel's turn keep, the whole keeps. -/
theorem inSomeOrder_induct (P : State → Prop) (s : State) (cs : List (Fin 8)) (f : Fin 8 → State → State) (h0 : P s)
    (hd : P s.drawn) (hf : ∀ c ∈ cs, ∀ t, P t → P (f c t)) : P (s.inSomeOrder cs f) := by
  have key : ∀ (ds : List (Fin 8)) (u : State), (∀ c ∈ ds, c ∈ cs) → P u → P (ds.foldl (fun t c => f c t) u) := by
    intro ds
    induction ds with
    | nil => intro u _ h; exact h
    | cons d ds ih =>
      intro u hm h
      exact ih _ (fun c hc => hm c (List.mem_cons_of_mem _ hc)) (hf d (hm d (List.mem_cons_self ..)) u h)
  obtain ⟨ds, hp, he⟩ := inSomeOrder_perm s cs f
  rw [he]
  refine key ds _ (fun c hc => hp.mem_iff.1 hc) ?_
  split
  · exact hd
  · exact h0

/-! Two turns for each channel -/

/-- A channel's places among the repeats: the first of them is not a repeat, the later ones are. -/
theorem filter_repeats (c : Fin 8) (ds seen : List (Fin 8)) :
    (repeats seen ds).filter (fun x => x.1 = c) =
      if c ∈ seen then List.replicate (ds.count c) (c, true)
      else match ds.count c with
        | 0 => []
        | n + 1 => (c, false) :: List.replicate n (c, true) := by
  induction ds generalizing seen with
  | nil => simp [repeats]
  | cons d ds ih =>
    unfold repeats
    by_cases hd : d = c
    · subst hd
      rw [List.filter_cons_of_pos (by simp), ih]
      by_cases hs : d ∈ seen <;> simp [hs, List.replicate_succ]
    · rw [List.filter_cons_of_neg (by simpa using hd), ih]
      have hc : c ≠ d := fun e => hd e.symm
      simp [hd, hc]

theorem map_fst_repeats (ds seen : List (Fin 8)) : (repeats seen ds).map (·.1) = ds := by
  induction ds generalizing seen with
  | nil => rfl
  | cons d ds ih => simp [repeats, ih]

/-- A list without repetition, twice over, in any order: the repeats give each of its channels two turns, in their order. -/
theorem filter_repeats_twice (cs ds : List (Fin 8)) (hn : cs.Nodup) (hp : ds.Perm (cs ++ cs)) (c : Fin 8) :
    (repeats [] ds).filter (fun x => x.1 = c) = if c ∈ cs then [(c, false), (c, true)] else [] := by
  rw [filter_repeats, hp.count_eq, List.count_append]
  by_cases hc : c ∈ cs
  · simp [hc, List.count_eq_one_of_mem hn hc]
  · simp [hc, List.count_eq_zero_of_not_mem hc]

/-- Each channel of the list has its two turns, in some order but for each channel's own two; with two channels or more a free
choice has been used. -/
theorem inTwoTurns_order (s : State) (cs : List (Fin 8)) (hn : cs.Nodup) (f : Fin 8 → Bool → State → State) :
    ∃ ts : List (Fin 8 × Bool),
      (∀ c : Fin 8, ts.filter (fun x => x.1 = c) = if c ∈ cs then [(c, false), (c, true)] else []) ∧
        s.inTwoTurns cs f =
          ts.foldl (fun t x => f x.1 x.2 t) { s with draws := if 2 < ts.length then s.draws + 1 else s.draws } := by
  cases cs with
  | nil => exact ⟨[], fun c => by simp, rfl⟩
  | cons a cs =>
    cases cs with
    | nil =>
      refine ⟨[(a, false), (a, true)], fun c => ?_, rfl⟩
      by_cases hc : a = c
      · subst hc; simp
      · have hc' : c ≠ a := fun e => hc e.symm
        simp [hc, hc']
    | cons b cs =>
      have hp := arrange_perm (Config.channelOrder s.draws) ((a :: b :: cs) ++ (a :: b :: cs))
      refine ⟨_, filter_repeats_twice _ _ hn hp, ?_⟩
      rw [if_pos]
      · rfl
      · rw [← List.length_map (f := Prod.fst), map_fst_repeats, hp.length_eq]
        simp only [List.length_append, List.length_cons]
        omega

/-- Every order of the turns that keeps each channel's own two is some order of the channels, each standing twice. -/
theorem repeats_any (cs : List (Fin 8)) (ts : List (Fin 8 × Bool))
    (h : ∀ c : Fin 8, ts.filter (fun x => x.1 = c) = if c ∈ cs then [(c, false), (c, true)] else []) :
    repeats [] (ts.map (·.1)) = ts := by
  have key : ∀ (ts : List (Fin 8 × Bool)) (seen : List (Fin 8)),
      (∀ c : Fin 8, c ∈ seen → ∀ x ∈ ts, x.1 = c → x.2 = true) →
      (∀ c : Fin 8, c ∉ seen → ∃ n, ts.filter (fun x => x.1 = c) = [] ∨
        ts.filter (fun x => x.1 = c) = (c, false) :: List.replicate n (c, true)) →
      repeats seen (ts.map (·.1)) = ts := by
    intro ts
    induction ts with
    | nil => intro seen _ _; rfl
    | cons x ts ih =>
      intro seen h1 h2
      obtain ⟨d, b⟩ := x
      have hb : seen.contains d = b := by
        by_cases hd : d ∈ seen
        · have : b = true := h1 d hd (d, b) (List.mem_cons_self ..) rfl
          simp [hd, this]
        · obtain ⟨n, hn | hn⟩ := h2 d hd
          · simp at hn
          · rw [List.filter_cons_of_pos (by simp)] at hn
            have : b = false := by simpa using (List.cons.inj hn).1
            simp [hd, this]
      simp only [List.map_cons, repeats, hb]
      congr 1
      apply ih
      · intro c hc x hx hxc
        rcases List.mem_cons.1 hc with rfl | hc
        · by_cases hd : c ∈ seen
          · exact h1 c hd x (List.mem_cons_of_mem _ hx) hxc
          · obtain ⟨n, hn | hn⟩ := h2 c hd
            · simp at hn
            · rw [List.filter_cons_of_pos (by simp)] at hn
              have hm : x ∈ ts.filter (fun x => x.1 = c) := by simp [hx, hxc]
              rw [(List.cons.inj hn).2] at hm
              rw [List.eq_of_mem_replicate hm]
        · exact h1 c hc x (List.mem_cons_of_mem _ hx) hxc
      · intro c hc
        rw [List.mem_cons, not_or] at hc
        obtain ⟨n, hn⟩ := h2 c hc.2
        rw [List.filter_cons_of_neg (by simpa using fun e => hc.1 e.symm)] at hn
        exact ⟨n, hn⟩
  apply key
  · simp
  · intro c _
    refine ⟨1, ?_⟩
    rw [h c]
    by_cases hc : c ∈ cs <;> simp [hc]

/-- Every such order of the turns is named by some number. -/
theorem twoTurns_any (cs : List (Fin 8)) (hn : cs.Nodup) (ts : List (Fin 8 × Bool))
    (h : ∀ c : Fin 8, ts.filter (fun x => x.1 = c) = if c ∈ cs then [(c, false), (c, true)] else []) :
    ∃ n, repeats [] (arrange n (cs ++ cs)) = ts := by
  have hp : (ts.map (·.1)).Perm (cs ++ cs) := by
    rw [List.perm_iff_count]
    intro c
    have h1 : (ts.map (·.1)).count c = (ts.filter fun x => x.1 = c).length := by
      rw [List.count, List.countP_map, List.countP_eq_length_filter]
      rfl
    rw [h1, h c, List.count_append]
    by_cases hc : c ∈ cs
    · simp [hc, List.count_eq_one_of_mem hn hc]
    · simp [hc, List.count_eq_zero_of_not_mem hc]
  obtain ⟨n, hn⟩ := arrange_any _ _ hp
  exact ⟨n, hn ▸ repeats_any cs ts h⟩

/-- A channel is one of those that name the line. -/
theorem mem_channelsOf (s : State) (l c : Fin 8) : c ∈ s.channelsOf l ↔ s.namesLine l c = true := by
  simp [State.channelsOf]

theorem nodup_channelsOf (s : State) (l : Fin 8) : (s.channelsOf l).Nodup := (List.nodup_finRange 8).filter _

/-! The step pool -/

/-- The steps that a slot holds. -/
def slotSteps : Option Pattern → Nat
  | some p => p.steps.length
  | none => 0

theorem stepsIn_eq (ps : Vector (Option Pattern) 16) : stepsIn ps = (ps.toList.map slotSteps).sum := rfl

theorem sum_set (l : List Nat) (i : Nat) (x : Nat) (h : i < l.length) : (l.set i x).sum + l[i] = l.sum + x := by
  induction l generalizing i with
  | nil => simp at h
  | cons a l ih =>
    cases i with
    | zero => simp; omega
    | succ i =>
      have := ih i (by simpa using h)
      simp only [List.set_cons_succ, List.sum_cons, List.getElem_cons_succ]
      omega

/-- Writing a slot changes the steps in use by the new count minus the old. -/
theorem stepsIn_set (ps : Vector (Option Pattern) 16) (id : Fin 16) (p : Option Pattern) :
    stepsIn (ps.set id p) + slotSteps ps[id] = stepsIn ps + slotSteps p := by
  have h : id.val < (ps.toList.map slotSteps).length := by simp
  have := sum_set (ps.toList.map slotSteps) id.val (slotSteps p) h
  simp only [stepsIn_eq, Vector.toList_set, List.map_set]
  simpa using this

/-! Bytes -/

theorem byte_toNat (n : Nat) : (byte n).toNat = n % 256 := by simp [byte]

/-- A byte that writes a small number reads back as that number. -/
theorem finOf_byte (n : Nat) (i : Fin n) (h : n ≤ 256) : finOf n (byte i.val) = some i := by
  have hi : (byte i.val).toNat = i.val := by
    rw [byte_toNat]
    exact Nat.mod_eq_of_lt (Nat.lt_of_lt_of_le i.isLt h)
  unfold finOf
  rw [dif_pos (by rw [hi]; exact i.isLt)]
  exact congrArg some (Fin.ext hi)

/-- A number out of range names nothing. -/
theorem finOf_none (n : Nat) (b : Byte) (h : n ≤ b.toNat) : finOf n b = none := by
  unfold finOf
  rw [dif_neg (by omega)]

end Sys2Proof.Machine
end

