-- ==== Sys2Proof/Laws/Operands.lean ====
section
/-! SUPPORT. Reading back what has been written: each field form of R170 read from its own bytes gives the value written. -/

namespace Sys2Proof.Machine

theorem nat16_be16 (n : Nat) (h : n < 65536) : nat16 (byte (n / 256)) (byte n) = n := by
  simp only [nat16, byte_toNat]
  omega

theorem nat24_bytes (n : Nat) (h : n < 16777216) : nat24 (byte (n / 65536)) (byte (n / 256)) (byte n) = n := by
  simp only [nat24, byte_toNat]
  omega

/-- A duration that fits is written in its three bytes. -/
theorem be24_eq (n : Nat) (h : n < 16777216) : be24 n = [byte (n / 65536), byte (n / 256), byte n] := by
  simp only [be24, if_pos h]

theorem be24_length (n : Nat) : (be24 n).length = 3 := rfl

theorem boolOf_yesNo (b : Bool) : boolOf (yesNo b) = some b := by cases b <;> rfl

theorem levelOf_levelByte (l : Level) : levelOf (levelByte l) = some l := by cases l <;> rfl

theorem sourceOfNat_code (src : Source) : sourceOfNat src.code = some src := by
  cases src with
  | channel c => simp [sourceOfNat, Source.code]
  | link => rfl

theorem sourceOf_toByte (src : Source) : sourceOf src.toByte = some src := by
  have h : src.code < 256 := by
    cases src with
    | channel c => exact Nat.lt_trans c.isLt (by decide)
    | link => decide
  unfold sourceOf Source.toByte
  rw [byte_toNat, Nat.mod_eq_of_lt h, sourceOfNat_code]

theorem code_lt (d : Drive) : d.code < 4098 := by
  cases d with
  | level l => cases l <;> decide
  | duty d => exact Nat.lt_trans d.isLt (by decide)

theorem driveOfNat_code (d : Drive) : driveOfNat d.code = some d := by
  cases d with
  | level l => cases l <;> rfl
  | duty d =>
    have h : (d.toNat : Nat) < 4096 := d.isLt
    simp [driveOfNat, Drive.code, h]

theorem driveOf_bytes (d : Drive) : driveOf (byte (d.code / 256)) (byte d.code) = some d := by
  unfold driveOf
  rw [nat16_be16 _ (Nat.lt_trans (code_lt d) (by decide)), driveOfNat_code]

theorem maskOf_byte (n : Nat) (m : BitVec n) (h : n ≤ 8) : maskOf n (byte m.toNat) = some m := by
  have hm : m.toNat < 2 ^ n := m.isLt
  have h8 : (2 : Nat) ^ n ≤ 256 := Nat.pow_le_pow_right (by decide) h
  unfold maskOf
  rw [byte_toNat, Nat.mod_eq_of_lt (Nat.lt_of_lt_of_le hm h8), if_pos hm]
  simp

/-- The records of a lawful step list read back as the list (R7, R171). -/
theorem stepsOf_bytes (steps : List PatternStep) (h : ∀ st ∈ steps, st.min < st.max ∧ st.max ≤ 16777215) :
    stepsOf (steps.flatMap PatternStep.bytes) = some steps := by
  induction steps with
  | nil => rfl
  | cons st rest ih =>
    obtain ⟨h1, h2⟩ := h st (by simp)
    have ih := ih fun x hx => h x (by simp [hx])
    have hmin : st.min < 16777216 := by omega
    have hmax : st.max < 16777216 := by omega
    rw [List.flatMap_cons]
    unfold PatternStep.bytes at ih ⊢
    rw [be24_eq _ hmin, be24_eq _ hmax]
    simp only [List.cons_append, List.nil_append, stepsOf, boolOf_yesNo, nat24_bytes _ hmin, nat24_bytes _ hmax]
    rw [ih]
    simp only
    rw [if_pos ⟨by show st.min ≤ 16777214; omega, h1, h2⟩]

/-- The bytes of a configuration in range read back as the configuration (R171). -/
theorem configOf_bytes (cfg : ChannelConfig) (h : cfg.InRange) :
    ∃ l p k f a b c d m t : Byte, cfg.bytes = [l, p, k, f, a, b, c, d, m, t] ∧
      configOf l p k f a b c d m t = some cfg := by
  obtain ⟨h1, h2, h3, h4⟩ := h
  obtain ⟨line, pattern, strikeLimit, forgive, acquire, report, bootArmed⟩ := cfg
  simp only at h1 h2 h3 h4
  have hk : (byte strikeLimit).toNat = strikeLimit := by rw [byte_toNat]; omega
  have hf : (byte forgive).toNat = forgive := by rw [byte_toNat]; omega
  cases acquire with
  | none =>
    refine ⟨_, _, _, _, _, _, _, _, _, _, rfl, ?_⟩
    simp only [configOf, finOf_byte 8 line (by decide), finOf_byte 16 pattern (by decide), acquireOf,
      maskOf_byte 5 report (by decide), boolOf_yesNo, hk, hf, if_true]
    exact if_pos ⟨h1, h2⟩
  | some n =>
    obtain ⟨h5, h6⟩ := h4 n rfl
    have hn : n < 16777216 := by omega
    refine ⟨byte line, byte pattern, byte strikeLimit, byte forgive, 1, byte (n / 65536), byte (n / 256), byte n,
      byte report.toNat, yesNo bootArmed, ?_, ?_⟩
    · simp only [ChannelConfig.bytes, optional, Option.map_some, be24_eq _ hn, List.cons_append, List.nil_append]
    · simp only [configOf, finOf_byte 8 line (by decide), finOf_byte 16 pattern (by decide), acquireOf,
        maskOf_byte 5 report (by decide), boolOf_yesNo, hk, hf, nat24_bytes _ hn]
      simp [h1, h2, Nat.lt_of_lt_of_le Nat.zero_lt_one h5]

end Sys2Proof.Machine
end

