-- ==== Sys2Proof/Laws/PerInstr.lean ====
section
/-! SUPPORT. The frame law, per command: a well-formed command that carries a frame is the command that its frame names. -/

namespace Sys2Proof.Laws.FrameLaw

/-- A well-formed command that carries a frame is the command that the frame names by its code (R172). -/
def Statement (i : Instr) : Prop := i.wf = true → ∀ f, i.frame? = some f → Instr.ofFrame f = i

theorem identify (tag : Byte) (params : List Byte) : Statement (.identify tag params) := by
  rintro - f ⟨⟩; rfl

theorem status (tag : Byte) (params : List Byte) : Statement (.status tag params) := by
  rintro - f ⟨⟩; rfl

theorem resetRequest (tag : Byte) (params : List Byte) : Statement (.resetRequest tag params) := by
  rintro - f ⟨⟩; rfl

theorem fetch (tag : Byte) (params : List Byte) : Statement (.fetch tag params) := by
  rintro - f ⟨⟩; rfl

theorem setAttention (tag : Byte) (params : List Byte) : Statement (.setAttention tag params) := by
  rintro - f ⟨⟩; rfl

theorem setLink (tag : Byte) (params : List Byte) : Statement (.setLink tag params) := by
  rintro - f ⟨⟩; rfl

theorem rearm (tag : Byte) (params : List Byte) : Statement (.rearm tag params) := by
  rintro - f ⟨⟩; rfl

theorem savePlan (tag : Byte) (params : List Byte) : Statement (.savePlan tag params) := by
  rintro - f ⟨⟩; rfl

theorem erasePlan (tag : Byte) (params : List Byte) : Statement (.erasePlan tag params) := by
  rintro - f ⟨⟩; rfl

theorem definePattern (tag : Byte) (params : List Byte) : Statement (.definePattern tag params) := by
  rintro - f ⟨⟩; rfl

theorem deletePattern (tag : Byte) (params : List Byte) : Statement (.deletePattern tag params) := by
  rintro - f ⟨⟩; rfl

theorem readPattern (tag : Byte) (params : List Byte) : Statement (.readPattern tag params) := by
  rintro - f ⟨⟩; rfl

theorem configureChannel (tag : Byte) (params : List Byte) : Statement (.configureChannel tag params) := by
  rintro - f ⟨⟩; rfl

theorem clearChannel (tag : Byte) (params : List Byte) : Statement (.clearChannel tag params) := by
  rintro - f ⟨⟩; rfl

theorem arm (tag : Byte) (params : List Byte) : Statement (.arm tag params) := by
  rintro - f ⟨⟩; rfl

theorem disarm (tag : Byte) (params : List Byte) : Statement (.disarm tag params) := by
  rintro - f ⟨⟩; rfl

theorem pause (tag : Byte) (params : List Byte) : Statement (.pause tag params) := by
  rintro - f ⟨⟩; rfl

theorem resume (tag : Byte) (params : List Byte) : Statement (.resume tag params) := by
  rintro - f ⟨⟩; rfl

theorem inject (tag : Byte) (params : List Byte) : Statement (.inject tag params) := by
  rintro - f ⟨⟩; rfl

theorem readChannel (tag : Byte) (params : List Byte) : Statement (.readChannel tag params) := by
  rintro - f ⟨⟩; rfl

theorem readObserved (tag : Byte) (params : List Byte) : Statement (.readObserved tag params) := by
  rintro - f ⟨⟩; rfl

theorem clearObserved (tag : Byte) (params : List Byte) : Statement (.clearObserved tag params) := by
  rintro - f ⟨⟩; rfl

theorem setReaction (tag : Byte) (params : List Byte) : Statement (.setReaction tag params) := by
  rintro - f ⟨⟩; rfl

theorem readReaction (tag : Byte) (params : List Byte) : Statement (.readReaction tag params) := by
  rintro - f ⟨⟩; rfl

theorem setOutput (tag : Byte) (params : List Byte) : Statement (.setOutput tag params) := by
  rintro - f ⟨⟩; rfl

theorem readOutput (tag : Byte) (params : List Byte) : Statement (.readOutput tag params) := by
  rintro - f ⟨⟩; rfl

theorem setLine (tag : Byte) (params : List Byte) : Statement (.setLine tag params) := by
  rintro - f ⟨⟩; rfl

theorem readLine (tag : Byte) (params : List Byte) : Statement (.readLine tag params) := by
  rintro - f ⟨⟩; rfl

theorem rawChange (line : Fin 8) (level : Level) : Statement (.rawChange line level) := by
  rintro - f ⟨⟩

theorem qualificationExpiry (line : Fin 8) : Statement (.qualificationExpiry line) := by
  rintro - f ⟨⟩

theorem stepDeadline (channel : Fin 8) : Statement (.stepDeadline channel) := by
  rintro - f ⟨⟩

theorem acquireExpiry (channel : Fin 8) : Statement (.acquireExpiry channel) := by
  rintro - f ⟨⟩

theorem frameEndExpiry (output : Fin 6) : Statement (.frameEndExpiry output) := by
  rintro - f ⟨⟩

theorem saveCompletion (matched : Bool) : Statement (.saveCompletion matched) := by
  rintro - f ⟨⟩

theorem secondBankInvalidation : Statement (.secondBankInvalidation) := by
  rintro - f ⟨⟩

theorem eraseCompletion : Statement (.eraseCompletion) := by
  rintro - f ⟨⟩

theorem powerOn : Statement (.powerOn) := by
  rintro - f ⟨⟩

theorem resetLine : Statement (.resetLine) := by
  rintro - f ⟨⟩

theorem resetEnd : Statement (.resetEnd) := by
  rintro - f ⟨⟩

theorem planLoadEnd : Statement (.planLoadEnd) := by
  rintro - f ⟨⟩

theorem byteArrival (byte : Byte) : Statement (.byteArrival byte) := by
  rintro - f ⟨⟩

theorem framingFault : Statement (.framingFault) := by
  rintro - f ⟨⟩

theorem gapExpiry : Statement (.gapExpiry) := by
  rintro - f ⟨⟩

theorem replySent : Statement (.replySent) := by
  rintro - f ⟨⟩

theorem silenceExpiry : Statement (.silenceExpiry) := by
  rintro - f ⟨⟩

theorem unknownRequestCode (tag code : Byte) (params : List Byte) :
    Statement (.unknownRequestCode tag code params) := by
  intro h f hf
  obtain rfl : f = ⟨tag, code, params⟩ := by simpa [Instr.frame?] using hf.symm
  have hc : code ∉ requestCodes := by
    simp only [Instr.wf, Bool.and_eq_true, Bool.not_eq_true', List.contains_eq_mem, decide_eq_false_iff_not] at h
    exact h.2
  simp only [requestCodes, List.cons_append, List.nil_append, List.mem_cons, not_or] at hc
  simp only [Instr.ofFrame]
  split <;> first | rfl | (exfalso; simp_all)

end Sys2Proof.Laws.FrameLaw
end

