-- ==== Sys2Proof/Laws/Queue.lean ====
section
/-! SUPPORT. What offering a notice can do: a TRIP is admitted, any other notice is admitted below the limit and dropped at it. -/

namespace Sys2Proof.Machine

variable (q : Queue) (t : Time) (src : NoticeSource) (b : NoticeBody)

/-- The notice that an offer would admit. -/
def Queue.next : Notice := { sequence := q.nextSeq, time := t, source := src, body := b }

theorem offer_admitted (h : (q.next t src b).isTrip = true ∨ nonTripCount q.notices < 39) :
    q.offer t src b = { q with notices := q.notices ++ [q.next t src b], nextSeq := q.nextSeq + 1 } := by
  unfold Queue.offer
  rw [if_pos (by simpa [Queue.next, Config.nonTripPlaces] using h)]
  rfl

theorem offer_dropped (h : (q.next t src b).isTrip = false) (hn : 39 ≤ nonTripCount q.notices) :
    q.offer t src b = { q with dropped := satSucc q.dropped } := by
  unfold Queue.offer
  rw [if_neg]
  simp only [Queue.next] at h
  simp only [Config.nonTripPlaces, h, Bool.false_or, decide_eq_true_eq]
  omega

/-- An offer never changes the attention mask. -/
@[simp] theorem mask_offer : (q.offer t src b).mask = q.mask := by
  simp only [Queue.offer]
  split <;> rfl

theorem nonTripCount_append (ns : List Notice) (n : Notice) :
    nonTripCount (ns ++ [n]) = nonTripCount ns + if n.isTrip then 0 else 1 := by
  unfold nonTripCount
  cases h : n.isTrip <;> simp [h]

theorem tripCount_append (ns : List Notice) (n : Notice) (s : Source) :
    tripCount (ns ++ [n]) s = tripCount ns s + if n.isTrip && n.source = .trip s then 1 else 0 := by
  unfold tripCount
  rw [List.countP_append]
  simp [List.countP_cons]

/-- A source has a pending TRIP notice exactly when the list holds one. -/
theorem tripPending_iff (s : Source) : q.tripPending s = true ↔ 0 < tripCount q.notices s := by
  unfold Queue.tripPending tripCount
  rw [List.countP_pos_iff]
  simp

/-- A source has no pending TRIP notice exactly when the list holds none. -/
theorem tripPending_false_iff (s : Source) : q.tripPending s = false ↔ tripCount q.notices s = 0 := by
  rw [← Bool.not_eq_true, tripPending_iff]
  omega

end Sys2Proof.Machine
end

