-- ==== Sys2Proof/Laws/Store.lean ====
section
/-! SUPPORT. What the Plan Store's operations can do: writing one bank, and which banks are the newest and the other. -/

namespace Sys2Proof.Machine

variable (st : Store)

@[simp] theorem bank_putBank_same (i : BankId) (b : Bank) : (st.putBank i b).bank i = b := by cases i <;> rfl

theorem bank_putBank_other (i j : BankId) (b : Bank) (h : j ≠ i) : (st.putBank i b).bank j = st.bank j := by
  cases i <;> cases j <;> first | rfl | exact absurd rfl h

@[simp] theorem op_putBank (i : BankId) (b : Bank) : (st.putBank i b).op = st.op := by cases i <;> rfl

@[simp] theorem valid_invalidate (i : BankId) : ((st.invalidate i).bank i).valid = false := by cases i <;> rfl

theorem generation_invalid (b : Bank) (h : b.valid = false) : b.generation = none := by
  simp [Bank.generation, Bank.saved, h]

/-- A bank that has a generation is valid and has content (R122). -/
theorem generation_some (b : Bank) (g : Count32) (h : b.generation = some g) :
    b.valid = true ∧ ∃ c, b.content = some c ∧ c.generation = g := by
  unfold Bank.generation Bank.saved at h
  cases hv : b.valid with
  | false => simp [hv] at h
  | true =>
    simp only [hv, if_true] at h
    cases hc : b.content with
    | none => simp [hc] at h
    | some c => exact ⟨rfl, c, rfl, by simpa [hc] using h⟩

/-- The other bank and the second bank of an erase are two different banks (R124, R127). -/
theorem other_ne_second : st.other ≠ st.second := by
  unfold Store.other Store.second
  cases st.newest with
  | none => decide
  | some i => cases i <;> simp

end Sys2Proof.Machine
end

