-- ==== Sys2Proof/Laws/Supervision.lean ====
section
/-! SUPPORT. What the handling of a deviation can do: a trip, or a return to SEEKING; and what it leaves of the rest. -/

namespace Sys2Proof.Machine

variable (s : State) (c : Fin 8) (dev : Deviation)

/-- A channel's record after stages 1 and 2: strike and record (R61). -/
def Channel.struck (ch : Channel) (dev : Deviation) : Channel :=
  { ch with strikes := ch.strikes + 1, goodRun := 0, counts := ch.counts.bump dev.kind, last := some dev }

/-- The strikes reach the limit: the channel trips (R61 stage 3). -/
theorem handleDeviation_trip (cfg : ChannelConfig) (hc : s.channels[c].config = some cfg)
    (h : s.channels[c].strikes + 1 = cfg.strikeLimit) :
    s.handleDeviation c dev = (s.putChannel c (s.channels[c].struck dev)).tripChannel c dev := by
  unfold State.handleDeviation
  rw [hc]
  exact if_pos h

/-- The strikes stay below the limit: the channel reports when its mask asks for it, and seeks (R61 stage 4). -/
theorem handleDeviation_seek (cfg : ChannelConfig) (hc : s.channels[c].config = some cfg)
    (h : s.channels[c].strikes + 1 ≠ cfg.strikeLimit) :
    s.handleDeviation c dev =
      (if reports cfg.report dev.kind then
        (s.putChannel c (s.channels[c].struck dev)).offer dev.time (.trip (.channel c))
          (.deviation dev.kind dev.step dev.measured (s.channels[c].strikes + 1))
      else s.putChannel c (s.channels[c].struck dev)).seek c := by
  unfold State.handleDeviation
  rw [hc]
  exact if_neg h

/-- What the handling of a deviation never touches. -/
theorem handleDeviation_frame :
    let t := s.handleDeviation c dev
    t.device = s.device ∧ t.cause = s.cause ∧ t.resetn = s.resetn ∧ t.time = s.time ∧
      t.planWritten = s.planWritten ∧ t.patterns = s.patterns ∧
      t.lines = s.lines ∧ t.reactions = s.reactions ∧ t.store = s.store ∧ t.link = s.link ∧ t.draws = s.draws ∧
      t.pending = s.pending := by
  unfold State.handleDeviation
  split
  · simp
  · simp only
    split
    · simp [State.tripChannel]
    · split <;> simp [State.seek]

/-- The other channels keep their records. -/
theorem handleDeviation_others (d : Fin 8) (h : c ≠ d) : (s.handleDeviation c dev).channels[d] = s.channels[d] := by
  have hv : c.val ≠ d.val := fun e => h (Fin.ext e)
  unfold State.handleDeviation
  split
  · rfl
  · simp only
    split
    · simp [State.tripChannel, hv]
    · split <;> simp [State.seek, hv]

/-- The handling leaves the cycles, the observed table, the configuration and a closure of its own channel (R61). -/
theorem handleDeviation_keeps :
    let ch := (s.handleDeviation c dev).channels[c]
    ch.cycles = s.channels[c].cycles ∧ ch.observed = s.channels[c].observed ∧ ch.config = s.channels[c].config ∧
      ch.closure = s.channels[c].closure := by
  unfold State.handleDeviation
  split
  · simp
  · simp only
    split
    · simp [State.tripChannel]
    · split <;> simp [State.seek]

/-- With a configuration, the handling ends in TRIPPED or in SEEKING. -/
theorem handleDeviation_state (cfg : ChannelConfig) (hc : s.channels[c].config = some cfg) :
    (s.handleDeviation c dev).channels[c].state =
      if s.channels[c].strikes + 1 = cfg.strikeLimit then .tripped
      else .seeking (cfg.acquire.map (after s.time)) := by
  split
  · next h => rw [handleDeviation_trip s c dev cfg hc h]; simp [State.tripChannel]
  · next h =>
    have hc' : s.channels[c.val].config = some cfg := hc
    rw [handleDeviation_seek s c dev cfg hc h]
    split <;> simp [State.seek, Channel.struck, hc']

/-- The record after the handling of a deviation: struck, then in TRIPPED or in SEEKING. -/
theorem handleDeviation_channel (cfg : ChannelConfig) (hc : s.channels[c].config = some cfg) :
    (s.handleDeviation c dev).channels[c] =
      { s.channels[c].struck dev with
        state :=
          if s.channels[c].strikes + 1 = cfg.strikeLimit then .tripped
          else .seeking (cfg.acquire.map (after s.time)) } := by
  split
  · next h => rw [handleDeviation_trip s c dev cfg hc h]; simp [State.tripChannel]
  · next h =>
    have hc' : s.channels[c.val].config = some cfg := hc
    rw [handleDeviation_seek s c dev cfg hc h]
    split <;> simp [State.seek, Channel.struck, hc']

/-- An edge that is not the closing edge of a held closure leaves the channel as it is before it acts on the edge (R66). -/
theorem closeByEdge_other (t : Time) (h : s.channels[c].closure.all (fun cl => cl.closing ≠ t) = true) :
    s.closeByEdge c t = s := by
  unfold State.closeByEdge
  split
  · next cl p h1 _ =>
    have h1' : s.channels[c.val].closure = some cl := h1
    have hne : cl.closing ≠ t := by simpa [h1'] using h
    simp [hne]
  · rfl

/-! What one channel's turn leaves -/

/-- `t` differs from `s` at most in the record of channel `c`, the claim lists, the outputs and the Notice Queue. -/
structure State.TurnOf (s : State) (c : Fin 8) (t : State) : Prop where
  device : t.device = s.device
  cause : t.cause = s.cause
  resetn : t.resetn = s.resetn
  time : t.time = s.time
  planWritten : t.planWritten = s.planWritten
  patterns : t.patterns = s.patterns
  lines : t.lines = s.lines
  others : ∀ d : Fin 8, c ≠ d → t.channels[d] = s.channels[d]
  reactions : t.reactions = s.reactions
  store : t.store = s.store
  link : t.link = s.link
  draws : t.draws = s.draws
  pending : t.pending = s.pending

theorem turn_refl : s.TurnOf c s := ⟨rfl, rfl, rfl, rfl, rfl, rfl, rfl, fun _ _ => rfl, rfl, rfl, rfl, rfl, rfl⟩

variable {s c}

theorem turn_trans {t u : State} (h : s.TurnOf c t) (k : t.TurnOf c u) : s.TurnOf c u :=
  ⟨k.device.trans h.device, k.cause.trans h.cause, k.resetn.trans h.resetn, k.time.trans h.time,
    k.planWritten.trans h.planWritten, k.patterns.trans h.patterns, k.lines.trans h.lines,
    fun d hd => (k.others d hd).trans (h.others d hd), k.reactions.trans h.reactions, k.store.trans h.store,
    k.link.trans h.link, k.draws.trans h.draws,
    k.pending.trans h.pending⟩

variable (s c)

theorem turn_putChannel (x : Channel) : s.TurnOf c (s.putChannel c x) :=
  ⟨rfl, rfl, rfl, rfl, rfl, rfl, rfl, fun d h => channels_get_putChannel_ne s c d x h, rfl, rfl, rfl, rfl, rfl⟩

theorem turn_offer (t : Time) (src : NoticeSource) (b : NoticeBody) : s.TurnOf c (s.offer t src b) :=
  ⟨rfl, rfl, rfl, rfl, rfl, rfl, rfl, fun _ _ => rfl, rfl, rfl, rfl, rfl, rfl⟩

theorem turn_handleDeviation : s.TurnOf c (s.handleDeviation c dev) := by
  obtain ⟨h1, h2, h3, h4, h5, h6, h7, h8, h9, h10, h11, h12⟩ := handleDeviation_frame s c dev
  exact ⟨h1, h2, h3, h4, h5, h6, h7, fun d h => handleDeviation_others s c dev d h, h8, h9, h10, h11, h12⟩

theorem turn_lateByDeadline (k : Nat) (start : Time) (max : Nat) : s.TurnOf c (s.lateByDeadline c k start max) :=
  turn_trans (turn_putChannel s c _) (turn_handleDeviation _ c _)

/-- A delivered deadline changes no other channel, and nothing but claims, outputs and notices beside it. -/
theorem turn_deliverDeadline : s.TurnOf c (s.deliverDeadline c) := by
  unfold State.deliverDeadline
  split
  · split
    · split
      · exact turn_lateByDeadline s c _ _ _
      · exact turn_refl s c
    · exact turn_refl s c
  · exact turn_refl s c

theorem turn_enterStep (k : Nat) (t : Time) : s.TurnOf c (s.enterStep c k t) := by
  unfold State.enterStep
  split
  · exact turn_refl s c
  · split
    · exact turn_refl s c
    · exact turn_putChannel s c _

theorem turn_syncEdge (level : Level) (t : Time) : s.TurnOf c (s.syncEdge c level t) := by
  unfold State.syncEdge
  split
  · exact turn_refl s c
  · split
    · exact turn_enterStep s c 0 t
    · exact turn_refl s c

theorem turn_handleByEdge (level : Level) (t : Time) : s.TurnOf c (s.handleByEdge c dev level t) := by
  unfold State.handleByEdge
  simp only
  split
  · exact turn_trans (turn_handleDeviation s c dev) (turn_syncEdge _ c level t)
  · exact turn_handleDeviation s c dev

theorem turn_passStep (cfg : ChannelConfig) (p : Pattern) (st : PatternStep) (k d : Nat) (t : Time) :
    s.TurnOf c (s.passStep c cfg p st k d t) := by
  have h : ∀ u : State, s.TurnOf c u → s.TurnOf c
      (if k + 1 = p.steps.length then (u.putChannel c (u.channels[c].completeCycle cfg.forgive)).enterStep c 0 t
        else u.enterStep c (k + 1) t) := by
    intro u hu
    split
    · exact turn_trans hu (turn_trans (turn_putChannel u c _) (turn_enterStep _ c 0 t))
    · exact turn_trans hu (turn_enterStep u c (k + 1) t)
  unfold State.passStep
  apply h
  split
  · exact turn_offer s c _ _ _
  · exact turn_refl s c

theorem turn_trackEdge (cfg : ChannelConfig) (k : Nat) (start : Time) (level : Level) (t : Time) :
    s.TurnOf c (s.trackEdge c cfg k start level t) := by
  unfold State.trackEdge
  split
  · exact turn_refl s c
  · split
    · exact turn_refl s c
    · simp only
      split
      · exact turn_trans (turn_putChannel s c _) (turn_handleByEdge _ c _ level t)
      · split
        · exact turn_trans (turn_putChannel s c _) (turn_passStep _ c _ _ _ _ _ _)
        · exact turn_trans (turn_putChannel s c _) (turn_handleByEdge _ c _ level t)

theorem turn_closeByEdge (t : Time) : s.TurnOf c (s.closeByEdge c t) := by
  unfold State.closeByEdge
  split
  · split
    · split
      · exact turn_putChannel s c _
      · exact turn_refl s c
    · exact turn_refl s c
  · exact turn_refl s c

theorem turn_edgeTurn (level : Level) (t : Time) : s.TurnOf c (s.edgeTurn c level t) := by
  unfold State.edgeTurn
  simp only
  split
  · exact turn_trans (turn_closeByEdge s c t) (turn_syncEdge _ c level t)
  · exact turn_trans (turn_closeByEdge s c t) (turn_trackEdge _ c _ _ _ level t)
  · exact turn_closeByEdge s c t

/-- An edge delivered to a channel changes no other channel, and nothing but claims, outputs and notices beside it. -/
theorem turn_edgeToChannel (level : Level) (t : Time) : s.TurnOf c (s.edgeToChannel c level t) :=
  turn_trans (turn_edgeTurn s c level t) (turn_deliverDeadline _ c)

/-- A moved deadline changes no other channel, and nothing but claims, outputs and notices beside it. -/
theorem turn_moveDeadline : s.TurnOf c (s.moveDeadline c) := by
  unfold State.moveDeadline
  split
  · split
    · exact turn_refl s c
    · exact turn_trans (turn_putChannel s c _) (turn_deliverDeadline _ c)
  · exact turn_refl s c

/-! A channel acts from its own record -/

/-- Two states that agree in all that a channel reads when it acts. -/
structure State.AlikeFor (c : Fin 8) (s u : State) : Prop where
  time : s.time = u.time
  patterns : s.patterns = u.patterns
  lines : s.lines = u.lines
  channel : s.channels[c] = u.channels[c]

variable {s c} {u : State}

theorem alike_turn {s' u' : State} (h : s.AlikeFor c u) (hs : s.TurnOf c s') (hu : u.TurnOf c u')
    (hc : s'.channels[c] = u'.channels[c]) : s'.AlikeFor c u' :=
  ⟨(hs.time.trans h.time).trans hu.time.symm, (hs.patterns.trans h.patterns).trans hu.patterns.symm,
    (hs.lines.trans h.lines).trans hu.lines.symm, hc⟩

theorem alike_patternOf (h : s.AlikeFor c u) : s.patternOf c = u.patternOf c := by
  unfold State.patternOf; rw [h.channel, h.patterns]

theorem alike_filterOf (h : s.AlikeFor c u) : s.filterOf c = u.filterOf c := by
  unfold State.filterOf; rw [h.channel, h.lines]

theorem alike_putChannel (h : s.AlikeFor c u) (x : Channel) : (s.putChannel c x).AlikeFor c (u.putChannel c x) :=
  alike_turn h (turn_putChannel s c x) (turn_putChannel u c x) (by simp)

theorem alike_offer (h : s.AlikeFor c u) (t t' : Time) (a a' : NoticeSource) (b b' : NoticeBody) :
    (s.offer t a b).AlikeFor c (u.offer t' a' b') :=
  ⟨h.time, h.patterns, h.lines, h.channel⟩

theorem alike_handleDeviation (h : s.AlikeFor c u) (dev : Deviation) :
    (s.handleDeviation c dev).AlikeFor c (u.handleDeviation c dev) := by
  refine alike_turn h (turn_handleDeviation s c dev) (turn_handleDeviation u c dev) ?_
  cases hc : s.channels[c].config with
  | none =>
    have hu : u.channels[c].config = none := by rw [← h.channel]; exact hc
    unfold State.handleDeviation
    rw [hc, hu]
    exact h.channel
  | some cfg =>
    have hu : u.channels[c].config = some cfg := by rw [← h.channel]; exact hc
    rw [handleDeviation_channel s c dev cfg hc, handleDeviation_channel u c dev cfg hu, h.channel, h.time]

theorem alike_lateByDeadline (h : s.AlikeFor c u) (k : Nat) (start : Time) (max : Nat) :
    (s.lateByDeadline c k start max).AlikeFor c (u.lateByDeadline c k start max) := by
  unfold State.lateByDeadline
  simp only [h.channel]
  exact alike_handleDeviation (alike_putChannel h _) _

theorem alike_deliverDeadline (h : s.AlikeFor c u) : (s.deliverDeadline c).AlikeFor c (u.deliverDeadline c) := by
  unfold State.deliverDeadline
  rw [alike_patternOf h, h.channel, h.time]
  cases u.channels[c].state with
  | tracking k start due =>
    cases u.patternOf c with
    | none => exact h
    | some p =>
      simp only
      split
      · split
        · exact alike_lateByDeadline h _ _ _
        · exact h
      · exact h
  | idle => exact h
  | seeking e => exact h
  | paused => exact h
  | tripped => exact h

theorem alike_enterStep (h : s.AlikeFor c u) (k : Nat) (t : Time) :
    (s.enterStep c k t).AlikeFor c (u.enterStep c k t) := by
  unfold State.enterStep
  rw [alike_patternOf h, alike_filterOf h, h.channel]
  split
  · exact h
  · split
    · exact h
    · exact alike_putChannel h _

theorem alike_syncEdge (h : s.AlikeFor c u) (level : Level) (t : Time) :
    (s.syncEdge c level t).AlikeFor c (u.syncEdge c level t) := by
  unfold State.syncEdge
  rw [alike_patternOf h]
  split
  · exact h
  · split
    · exact alike_enterStep h 0 t
    · exact h

theorem alike_handleByEdge (h : s.AlikeFor c u) (dev : Deviation) (level : Level) (t : Time) :
    (s.handleByEdge c dev level t).AlikeFor c (u.handleByEdge c dev level t) := by
  have h1 := alike_handleDeviation h dev
  unfold State.handleByEdge
  simp only
  rw [h1.channel]
  cases (u.handleDeviation c dev).channels[c].state with
  | seeking e => exact alike_syncEdge h1 level t
  | idle => exact h1
  | tracking k start due => exact h1
  | paused => exact h1
  | tripped => exact h1

theorem alike_passStep (h : s.AlikeFor c u) (cfg : ChannelConfig) (p : Pattern) (st : PatternStep) (k d : Nat) (t : Time) :
    (s.passStep c cfg p st k d t).AlikeFor c (u.passStep c cfg p st k d t) := by
  have key : ∀ s' u' : State, s'.AlikeFor c u' →
      (if k + 1 = p.steps.length then (s'.putChannel c (s'.channels[c].completeCycle cfg.forgive)).enterStep c 0 t
        else s'.enterStep c (k + 1) t).AlikeFor c
      (if k + 1 = p.steps.length then (u'.putChannel c (u'.channels[c].completeCycle cfg.forgive)).enterStep c 0 t
        else u'.enterStep c (k + 1) t) := by
    intro s' u' h'
    split
    · rw [h'.channel]; exact alike_enterStep (alike_putChannel h' _) 0 t
    · exact alike_enterStep h' _ t
  unfold State.passStep
  apply key
  split
  · exact alike_offer h _ _ _ _ _ _
  · exact h

theorem alike_trackEdge (h : s.AlikeFor c u) (cfg : ChannelConfig) (k : Nat) (start : Time) (level : Level) (t : Time) :
    (s.trackEdge c cfg k start level t).AlikeFor c (u.trackEdge c cfg k start level t) := by
  unfold State.trackEdge
  rw [h.patterns, h.channel]
  split
  · exact h
  · split
    · exact h
    · simp only
      have h1 := alike_putChannel h (u.channels[c].observe k (elapsed t start))
      split
      · exact alike_handleByEdge h1 _ level t
      · split
        · exact alike_passStep h1 _ _ _ _ _ _
        · exact alike_handleByEdge h1 _ level t

theorem alike_closeByEdge (h : s.AlikeFor c u) (t : Time) : (s.closeByEdge c t).AlikeFor c (u.closeByEdge c t) := by
  unfold State.closeByEdge
  rw [alike_patternOf h, h.channel]
  cases u.channels[c].closure with
  | none => exact h
  | some cl =>
    cases u.patternOf c with
    | none => exact h
    | some p =>
      by_cases hcl : cl.closing = t
      · simp only [hcl, if_true]
        cases p.steps[cl.step]? with
        | none => exact h
        | some st => exact alike_putChannel h _
      · simp only [hcl, if_false]
        exact h

/-- What a channel makes of an edge follows from the channel's own record, its line and its pattern (R23). -/
theorem alike_edgeTurn (h : s.AlikeFor c u) (level : Level) (t : Time) :
    (s.edgeTurn c level t).AlikeFor c (u.edgeTurn c level t) := by
  have h1 := alike_closeByEdge h t
  unfold State.edgeTurn
  simp only
  rw [h1.channel]
  cases (u.closeByEdge c t).channels[c].config with
  | none => exact h1
  | some cfg =>
    cases (u.closeByEdge c t).channels[c].state with
    | seeking e => exact alike_syncEdge h1 level t
    | tracking k start due => exact alike_trackEdge h1 cfg k start level t
    | idle => exact h1
    | paused => exact h1
    | tripped => exact h1

theorem alike_edgeToChannel (h : s.AlikeFor c u) (level : Level) (t : Time) :
    (s.edgeToChannel c level t).AlikeFor c (u.edgeToChannel c level t) :=
  alike_deliverDeadline (alike_edgeTurn h level t)

/-- What a moved deadline makes of a channel follows from the channel's own record, its line and its pattern (R25). -/
theorem alike_moveDeadline (h : s.AlikeFor c u) : (s.moveDeadline c).AlikeFor c (u.moveDeadline c) := by
  unfold State.moveDeadline
  rw [alike_patternOf h, alike_filterOf h, h.channel]
  cases u.channels[c].state with
  | tracking k start due =>
    cases u.patternOf c with
    | none => exact h
    | some p =>
      simp only
      split
      · exact h
      · exact alike_deliverDeadline (alike_putChannel h _)
  | idle => exact h
  | seeking e => exact h
  | paused => exact h
  | tripped => exact h

/-! What the channels of a line leave, one turn after another -/

/-- `t` differs from `s` at most in the records of the channels of `cs`, the claim lists, the outputs and the Notice Queue. -/
structure State.TurnsOf (s : State) (cs : List (Fin 8)) (t : State) : Prop where
  others : ∀ d : Fin 8, d ∉ cs → t.channels[d] = s.channels[d]
  rest : t = { s with channels := t.channels, claims := t.claims, outputs := t.outputs, queue := t.queue }

variable {α : Type} (key : α → Fin 8) (f : α → State → State)

/-- Turns, one after another; `key` names the channel of a turn. -/
theorem turns_foldl (hf : ∀ (x : α) (t : State), t.TurnOf (key x) (f x t)) (xs : List α) (s : State) :
    s.TurnsOf (xs.map key) (xs.foldl (fun t x => f x t) s) := by
  induction xs generalizing s with
  | nil => exact ⟨fun _ _ => rfl, rfl⟩
  | cons x xs ih =>
    have h1 := hf x s
    have h2 := ih (f x s)
    constructor
    · intro d hd
      rw [List.map_cons, List.mem_cons, not_or] at hd
      exact (h2.others d hd.2).trans (h1.others d (Ne.symm hd.1))
    · refine h2.rest.trans ?_
      rw [List.foldl_cons, h1.device, h1.cause, h1.resetn, h1.time, h1.planWritten, h1.patterns, h1.lines, h1.reactions,
        h1.store, h1.link, h1.draws, h1.pending]

/-- When a turn follows from what its channel reads of the state before (`same`), the turns of many channels leave each channel
with the record that its own turns alone give. -/
theorem foldl_own (hf : ∀ (x : α) (t : State), t.TurnOf (key x) (f x t))
    (same : ∀ (x : α) (t u : State), t.AlikeFor (key x) u → (f x t).AlikeFor (key x) (f x u))
    (c : Fin 8) (xs : List α) (s u : State) (h : s.AlikeFor c u) :
    (xs.foldl (fun t x => f x t) s).AlikeFor c ((xs.filter fun x => key x = c).foldl (fun t x => f x t) u) := by
  induction xs generalizing s u with
  | nil => exact h
  | cons x xs ih =>
    by_cases hx : key x = c
    · rw [List.filter_cons_of_pos (by simpa using hx)]
      subst hx
      exact ih _ _ (same x s u h)
    · rw [List.filter_cons_of_neg (by simpa using hx)]
      have h1 := hf x s
      refine ih _ _ ⟨h1.time.trans h.time, h1.patterns.trans h.patterns, h1.lines.trans h.lines, ?_⟩
      exact (h1.others c hx).trans h.channel

end Sys2Proof.Machine
end

