-- ==== Sys2Proof/Tests/Slice0.lean ====
section
/-! SUPPORT. Small tests: ill-formed commands refused, the spec's worked values, and for every statement with hypotheses a
concrete state and operands that meet them, clause by clause. -/

-- One theorem at a time: an evaluation in the kernel takes a thread of its own.
set_option Elab.async false

namespace Sys2Proof.Tests

open Sys2Proof.Machine

/-! Helpers: small states of the part -/

/-- The next state of a command, or the state itself. -/
def after! (i : Instr) (s : State) : State :=
  match exec i s with
  | .next t => t
  | _ => s

/-- RUNNING with the defaults. -/
def running : State := after! .planLoadEnd State.reset

/-- A frame with TAG 7. -/
def req (code : Byte) (params : List Byte) : Frame := ⟨7, code, params⟩

/-- The frame waits alone in the inbox. -/
def asking (f : Frame) (s : State) : State := { s with link := { s.link with inbox := [f] } }

/-- The data of the last reply, with its status. -/
def reply (s : State) : Option (Status × List Byte) := s.link.replies.getLast?.map fun r => (r.status, r.data)

/-- A pattern of two steps. -/
def tach : Pattern := { startLevel := .high, steps := [⟨1000, 2000, true⟩, ⟨500, 600, false⟩] }

/-- A configuration on line 0 and pattern 0. -/
def cfg0 : ChannelConfig :=
  { line := 0, pattern := 0, strikeLimit := 2, forgive := 1, acquire := some 5000, report := 0x1F, bootArmed := false }

/-- A configured channel in a state. -/
def chan (st : ChannelState) (strikes : Nat := 0) : Channel :=
  { Channel.atReset with config := some cfg0, state := st, strikes, observed := clearedTable 2 }

/-- The reaction of entry 0: CH3 drives OUT0 high. -/
def react0 : Reaction := { source := .channel 3, output := 0, drive := .level .high, priority := 3 }

/-- The claim that entry 0 makes. -/
def claim0 : Claim := { index := 0, source := .channel 3, priority := 3, drive := .level .high }

/-- A RUNNING part with a channel in each state: CH0 TRACKING, CH1 SEEKING, CH2 PAUSED, CH3 TRIPPED, CH4 IDLE and configured,
CH5 IDLE. -/
def world : State :=
  { ((((((running.putPattern 0 (some tach)).putChannel 0 (chan (.tracking 0 0 2020))).putChannel 1
      (chan (.seeking (some 5000)))).putChannel 2 (chan .paused 1)).putChannel 3 (chan .tripped 2)).putChannel 4
      (chan .idle)).putReaction 0 (some react0) with
    claims := (Vector.replicate 6 []).set 0 [claim0]
    outputs := ((Vector.replicate 6 Generator.atReset).set 0
      { Generator.atReset with applied := .level .high }).set 1
      { Generator.atReset with base := .duty 1234, applied := .duty 1234, frameStart := some 1024 } }

/-- The part at another device time. -/
def at! (t : Time) (s : State) : State := { s with time := t }

/-- One notice waits. -/
def noticed (b : NoticeBody) (src : NoticeSource) (s : State) : State := s.offer s.time src b

/-- A TRIP notice of CH3 waits. -/
def tripNoticed : State := noticed (.tripChannel .late (some 0) (some 2000) 2 1) (.trip (.channel 3)) world

/-- LINK in a state, with t = 500 ms. -/
def linked (l : LinkState) (s : State) : State := { s with link := { s.link with source := l, timeout := 500 } }

/-- A bank with the image of the defaults. -/
def bankOf (g : Count32) (img : Image := Image.defaults) : Bank :=
  { content := some { image := img, generation := g, checkMatches := true }, valid := true }

/-- The store with bank A at a generation, bank B at another, and an operation. -/
def stored (a b : Bank) (op : StoreOp) (s : State) : State := { s with store := { bankA := a, bankB := b, op } }

/-! Well-formed commands -/

theorem test_wf_ok : (Instr.arm 1 [0]).wf = true ∧ (Instr.unknownRequestCode 1 0xEE []).wf = true ∧
    (Instr.rawChange 0 .high).wf = true := by decide

theorem test_wf_frame_too_long : (Instr.arm 1 (List.replicate 249 0)).wf = false := by decide +kernel

theorem test_wf_known_code : (Instr.unknownRequestCode 1 0x52 [0]).wf = false := by decide

/-! No word of the table spells a command -/

theorem test_no_words (w : Nat) : decodeTableWord 8 w = none := rfl

/-! Values the spec works out -/

theorem test_crc_check : crc16 [0x31, 0x32, 0x33, 0x34, 0x35, 0x36, 0x37, 0x38, 0x39] = 0x29B1 := by decide +kernel

theorem test_duty_1234 : (List.range 16).map (highCount 1234) =
    [78, 77, 77, 77, 77, 77, 77, 77, 78, 77, 77, 77, 77, 77, 77, 77] := by decide +kernel

theorem test_byte_times : byteTimes 1 = 87 ∧ byteTimes 36 = 3125 ∧ frameLength 2 = 1024 := by decide

/-- The two records of the example of R175. -/
theorem test_fetch_records :
    (Notice.mk 40 203500 (.trip (.channel 1)) (.deviation .early (some 1) (some 500) 1)).bytes =
      [0x00, 0x28, 0x00, 0x03, 0x1A, 0xEC, 0x01, 0x01, 0x01, 0x01, 0x01, 0x01, 0x00, 0x01, 0xF4, 0x01, 0x00, 0x00] ∧
    (Notice.mk 41 206500 (.trip (.channel 1)) (.tripChannel .late (some 0) (some 3000) 2 1)).bytes =
      [0x00, 0x29, 0x00, 0x03, 0x26, 0xA4, 0x01, 0x02, 0x02, 0x01, 0x00, 0x01, 0x00, 0x0B, 0xB8, 0x02, 0x01, 0x00] := by
  decide +kernel

/-- Priorities 3, 5, 2, 5: the second claim wins; without it the fourth (the example of R84). -/
theorem test_winner :
    winner [⟨0, .link, 3, .level .low⟩, ⟨1, .link, 5, .level .high⟩, ⟨2, .link, 2, .level .low⟩, ⟨3, .link, 5, .duty 9⟩] =
      some ⟨1, .link, 5, .level .high⟩ ∧
    winner [⟨0, .link, 3, .level .low⟩, ⟨2, .link, 2, .level .low⟩, ⟨3, .link, 5, .duty 9⟩] =
      some ⟨3, .link, 5, .duty 9⟩ := by decide

/-! Lawful states. Each law of a concrete state is decided by evaluation. -/

/-- Decides the step of a channel. -/
def decStep (x : ChannelState) (n : Nat) : Decidable (x.StepBelow n) := by
  unfold ChannelState.StepBelow
  split <;> infer_instance

/-- Decides the counts of a channel. -/
def decCounts (ch : Channel) (cfg : ChannelConfig) : Decidable (ch.CountsLawful cfg) := by
  unfold Channel.CountsLawful
  infer_instance

/-- Decides the law of a channel. -/
def decChannel (s : State) (c : Fin 8) : Decidable (s.ChannelLawAt c) := by
  have h1 := decStep
  have h2 := decCounts
  unfold State.ChannelLawAt ChannelConfig.InRange
  split
  · infer_instance
  · split <;> infer_instance

/-- Decides the law of a channel's expiry. -/
def decDeadline (s : State) (c : Fin 8) : Decidable (s.DeadlineLawAt c) := by
  unfold State.DeadlineLawAt ahead
  split
  · split
    · infer_instance
    · split <;> infer_instance
  · split <;> infer_instance
  · infer_instance

/-- The admission law, from checks that can be evaluated. -/
theorem admission_of (q : Queue)
    (h : nonTripCount q.notices ≤ 39 ∧ (∀ c : Fin 8, tripCount q.notices (.channel c) ≤ 1) ∧ tripCount q.notices .link ≤ 1 ∧
      (∀ n ∈ q.notices, n.isTrip = true → n.source ≠ .device) ∧ q.notices.length ≤ 48) : q.AdmissionLaw :=
  ⟨h.1, fun src => by cases src with | channel c => exact h.2.1 c | link => exact h.2.2.1, h.2.2.2⟩

/-- Decides whether a held time lies within a bound. -/
def decHeld (now : Time) (t : Option Time) (bound : Nat) : Decidable (heldWithin now t bound) := by
  unfold heldWithin
  split <;> infer_instance

/-- A bank's validity, from a check that can be evaluated. -/
theorem validity_of (b : Bank) (h : b.valid = (b.content.map (·.checkMatches)).getD false) :
    b.valid = true ↔ ∃ c : BankContent, b.content = some c ∧ c.checkMatches = true := by
  rw [h]
  cases b.content <;> simp

/-- A part in RUNNING with CH0 in TRACKING at its deadline, and CH3 TRIPPED with a claim, is lawful. -/
theorem test_world_lawful : (at! 2020 world).Lawful where
  patterns := by unfold State.PatternLaw Pattern.Lawful; decide +kernel
  channels := fun c => @of_decide_eq_true _ (decChannel _ c) (by revert c; decide +kernel)
  lines := by unfold State.LineLaw; decide +kernel
  claims := by unfold State.ClaimLaw State.Backed; decide +kernel
  outputs := by unfold State.OutputLaw State.OutputLawAt; decide +kernel
  admission := admission_of _ (by decide +kernel)
  sequence := by unfold Queue.SequenceLaw; decide +kernel
  pending := by unfold State.PendingLaw; decide +kernel
  quiet := fun h => absurd (by decide +kernel) h
  reset := fun h => absurd h (by decide +kernel)
  link := ⟨by decide +kernel, by decide +kernel, by decide +kernel, by decide +kernel, trivial, .inl rfl, trivial⟩
  store := ⟨fun i => validity_of _ (by cases i <;> rfl), trivial⟩
  deadlines := fun c => @of_decide_eq_true _ (decDeadline _ c) (by revert c; decide +kernel)
  expiries :=
    ⟨fun l => @of_decide_eq_true _ (decHeld _ _ _) (by revert l; decide +kernel),
      fun o => @of_decide_eq_true _ (decHeld _ _ _) (by revert o; decide +kernel), trivial, trivial⟩

/-- A part in STARTING, with a valid bank, is lawful. -/
theorem test_starting_lawful : (stored Bank.empty (bankOf 5) .idle State.reset).Lawful where
  patterns := by unfold State.PatternLaw Pattern.Lawful; decide +kernel
  channels := fun c => @of_decide_eq_true _ (decChannel _ c) (by revert c; decide +kernel)
  lines := by unfold State.LineLaw; decide +kernel
  claims := by unfold State.ClaimLaw State.Backed; decide +kernel
  outputs := by unfold State.OutputLaw State.OutputLawAt; decide +kernel
  admission := admission_of _ (by decide +kernel)
  sequence := rfl
  pending := by unfold State.PendingLaw; decide +kernel
  quiet := by unfold State.QuietLaw; decide +kernel
  reset := fun h => absurd h (by decide +kernel)
  link := ⟨by decide +kernel, by decide +kernel, by decide +kernel, by decide +kernel, trivial, .inl rfl, trivial⟩
  store := ⟨fun i => validity_of _ (by cases i <;> rfl), trivial⟩
  deadlines := fun c => @of_decide_eq_true _ (decDeadline _ c) (by revert c; decide +kernel)
  expiries :=
    ⟨fun l => @of_decide_eq_true _ (decHeld _ _ _) (by revert l; decide +kernel),
      fun o => @of_decide_eq_true _ (decHeld _ _ _) (by revert o; decide +kernel), trivial, trivial⟩

/-- A lawful part in RUNNING is lawful with any lawful store. -/
theorem lawful_withStore (s : State) (st : Store) (h : s.Lawful) (hr : s.device = .running)
    (hs : ({ s with store := st } : State).StoreLaw) : ({ s with store := st } : State).Lawful where
  patterns := h.patterns
  channels := h.channels
  lines := h.lines
  claims := h.claims
  outputs := h.outputs
  admission := h.admission
  sequence := h.sequence
  pending := h.pending
  quiet := fun hn => absurd hr hn
  reset := h.reset
  link := h.link
  store := hs
  deadlines := h.deadlines
  expiries := h.expiries

/-- A save of generation 6 into bank B, and an erase whose second bank is A, are in flight beside a valid bank A. -/
theorem test_hyp_operations_lawful :
    (stored (bankOf 5) Bank.empty (.saving .b 6 Image.defaults 0) (at! 2020 world)).Lawful ∧
    (stored (bankOf 5) Bank.empty (.erasing (some .a) 0) (at! 2020 world)).Lawful ∧
    (bankOf 5).valid = true ∧ BankId.a ≠ .b ∧ Instr.powerOn ≠ .secondBankInvalidation ∧ Instr.powerOn ≠ .eraseCompletion := by
  have hv : ∀ (op : StoreOp) (i : BankId),
      ((stored (bankOf 5) Bank.empty op (at! 2020 world)).store.bank i).valid = true ↔
      ∃ c : BankContent, ((stored (bankOf 5) Bank.empty op (at! 2020 world)).store.bank i).content = some c ∧
        c.checkMatches = true := fun op i => validity_of _ (by cases i <;> rfl)
  refine ⟨lawful_withStore _ _ test_world_lawful (by decide +kernel) ⟨hv _, rfl, fun j hj => ?_⟩,
    lawful_withStore _ _ test_world_lawful (by decide +kernel) ⟨hv _, fun j hj => ?_⟩, rfl, by decide, by decide, by decide⟩
  · cases j with
    | a => exact ⟨rfl, by decide⟩
    | b => exact absurd rfl hj
  · cases j with
    | a => exact absurd rfl hj
    | b => rfl

/-! Hypotheses that are met: the steps, the reset and the laws -/

/-- A line's record with a run since time 0. -/
def runningLine (l : Line) : Line := { l with raw := .high, filtered := .low, runStart := some 0 }

theorem test_hyp_front_command :
    ({ running with pending := [.framingFault, .gapExpiry] } : State).pending = .framingFault :: [.gapExpiry] := rfl

theorem test_hyp_empty_queue :
    ((after! .powerOn world).pending = [] ∧ (after! .powerOn world).dueEvents = [] ∧ (after! .powerOn world).device = .reset) ∧
    (State.reset.pending = [] ∧ State.reset.dueEvents = [] ∧ State.reset.device ≠ .reset) ∧
    State.reset.planWritten = false ∧
    (State.reset.writePlan.pending = [] ∧ State.reset.writePlan.dueEvents = [] ∧
      State.reset.writePlan.device = .starting ∧ State.reset.writePlan.planWritten = true) ∧
    (running.pending = [] ∧ running.dueEvents = [] ∧ running.device = .running) ∧
    ((at! 2020 world).pending = [] ∧ (at! 2020 world).dueEvents ≠ []) := by decide +kernel

theorem test_hyp_due :
    (at! 20 (running.putLine 0 (runningLine running.lines[0]))).dueEvents = [.qualificationExpiry 0] ∧
    (at! 2020 world).dueEvents = [.stepDeadline 0] ∧
    .acquireExpiry 1 ∈ (at! 5000 world).dueEvents ∧ .frameEndExpiry 1 ∈ (at! 2048 world).dueEvents ∧
    (at! 2001 { running with link := { running.link with receiver := .length 2001 } }).dueEvents = [.gapExpiry] ∧
    (at! 500000 (linked (.watching 500000) running)).dueEvents = [.silenceExpiry] := by decide +kernel

/-- The sample of a line, the oldest frame, the end of a reply, and the bounds of a save, an erase and the load. -/
theorem test_hyp_due_beside_expiries :
    (let s := running.tick.putLine 0 { running.tick.lines[0] with pin := .high }
     s.device = .running ∧ s.lines[0].sampled = false ∧ s.lines[0].pin ≠ s.lines[0].raw ∧
      s.dueEvents = [.rawChange 0 .high]) ∧
    ((asking (req 0x52 [4]) world).Takes (req 0x52 [4]) [] ∧ (asking (req 0x52 [4]) world).dueEvents = [.arm 7 [4]]) ∧
    (at! 521 { running with link := { running.link with
      replies := [{ tag := 7, status := .ok, data := [], thenReset := false }], sendStart := some 0 } }).dueEvents =
        [.replySent] ∧
    80000 ≤ elapsed (at! 80000 (stored (bankOf 5) Bank.empty (.saving .b 6 Image.defaults 0) running)).time 0 ∧
    (at! 50000 (stored (bankOf 5) Bank.empty (.erasing none 0) running)).dueEvents = [.eraseCompletion] ∧
    (at! 4999 State.reset).dueEvents = [] ∧ (at! 5000 State.reset).dueEvents = [.planLoadEnd] := by
  unfold State.Takes; decide +kernel

theorem test_hyp_reset_end :
    (after! .powerOn world).device = .reset ∧ (after! .resetLine world).resetn = .low ∧ world.device ≠ .reset := by
  decide +kernel

/-- A lawful step, in which CH0 goes from TRACKING to SEEKING and so stays outside IDLE. -/
theorem test_hyp_lawful_step :
    ∃ s t : State, s.Lawful ∧ step s = .next t ∧ s.channels[0].state ≠ .idle ∧ t.channels[0].state ≠ .idle ∧
      s.channels[0].config = some cfg0 :=
  have hd : (at! 2020 world).dueEvents = [.stepDeadline 0] := by decide +kernel
  have hp : (at! 2020 world).pending = [] := by decide +kernel
  ⟨_, after! (.stepDeadline 0) (at! 2020 world).drawn, test_world_lawful, by simp only [step, hp, hd]; rfl,
    by decide +kernel⟩

/-! The link -/

/-- The receiver in a state. -/
def receiving (r : Receiver) (s : State) : State := { s with link := { s.link with receiver := r } }

/-- A reply in the reply queue, its sending begun at time 0. -/
def replying (rs : List Reply) (s : State) : State := { s with link := { s.link with replies := rs, sendStart := some 0 } }

/-- An OK reply without data. -/
def okReply (thenReset : Bool) : Reply := { tag := 7, status := .ok, data := [], thenReset }

theorem test_hyp_receiver :
    (after! .powerOn world).device = .reset ∧ world.device ≠ .reset ∧ world.link.receiver = .hunting ∧
    (receiving (.length 9) world).link.receiver = .length 9 ∧
    (receiving (.body 2 [2] 9) world).link.receiver = .body 2 [2] 9 ∧
    (receiving (.check 2 [2, 7, 16] [] 9) world).link.receiver = .check 2 [2, 7, 16] [] 9 ∧
    (receiving (.length 9) world).link.receiver ≠ .hunting ∧
    (receiving (.length 9) world).link.receiver.gap = some 9 ∧
    reached (at! 9 (receiving (.length 9) world)).time 9 = true ∧
    reached (at! 8 (receiving (.length 9) world)).time 9 = false := by decide +kernel

/-- The two check bytes of the shortest IDENTIFY frame. -/
theorem test_hyp_second_check_byte :
    world.device ≠ .reset ∧ (receiving (.check 2 [2, 7, 16] [0x39] 9) world).link.receiver = .check 2 [2, 7, 16] [0x39] 9 ∧
    (crc16 [2, 7, 16]).toNat ≠ (0 : Byte).toNat * 256 + (0 : Byte).toNat ∧
    (∃ hi lo : Nat, hi < 256 ∧ lo < 256 ∧ (crc16 [2, 7, 16]).toNat = hi * 256 + lo) ∧
    (asking (req 0x10 []) world).link.inbox.length < 2 ∧
    2 ≤ ({ world.link with inbox := [req 0x10 [], req 0x10 []] } : Link).inbox.length ∧
    world.link.replies.length < 4 ∧ 4 ≤ (replying (List.replicate 4 (okReply false)) world).link.replies.length :=
  ⟨by decide +kernel, rfl, by decide +kernel, ⟨(crc16 [2, 7, 16]).toNat / 256, (crc16 [2, 7, 16]).toNat % 256,
    by decide +kernel, by decide +kernel, by decide +kernel⟩, by decide +kernel, by decide, by decide +kernel, by decide⟩

theorem test_hyp_receiving_a_frame :
    let f := req 0x52 [4]
    let s := { asking (req 0x10 []) world with pending := (requestBytes f).map Instr.byteArrival }
    f.wf = true ∧ s.device ≠ .reset ∧ s.link.receiver = .hunting ∧ s.link.inbox.length < 2 ∧
      s.pending = (requestBytes f).map Instr.byteArrival :=
  ⟨by decide, by decide +kernel, by decide +kernel, by decide +kernel, rfl⟩

theorem test_hyp_frame_form : ([] : List Byte).length ≤ 250 ∧ (List.replicate 250 (0 : Byte)).length ≤ 250 := by decide +kernel

theorem test_hyp_reply_sent :
    (∀ b : Bool, (replying [okReply b, okReply false] world).link.replies = okReply b :: [okReply false] ∧
      (replying [okReply b, okReply false] world).link.sendStart = some 0 ∧ (okReply b).thenReset = b) ∧
    reached (at! 520 world).time (after 0 ((((okReply true).data.length + 2 + 4) * 3125 + 35) / 36)) = false ∧
    reached (at! 521 world).time (after 0 ((((okReply true).data.length + 2 + 4) * 3125 + 35) / 36)) = true := by
  decide +kernel

/-- TXD: idle at the high level; the start bit of A5H, its bits from the least significant on, its stop bit; idle after the
last byte. -/
theorem test_txd :
    let k := (replying [okReply false] world).link
    world.link.replies = [] ∧ world.link.txdLevel 5 = .high ∧ k.replies = okReply false :: [] ∧ k.sendStart = some 0 ∧
    (okReply false).bytes[0]? = some 0xA5 ∧
    [0, 9, 18, 27, 35, 44, 53, 61, 70, 79].map (fun t : Nat => k.txdLevel (BitVec.ofNat 32 t)) =
      [.low, .high, .low, .high, .low, .low, .high, .low, .high, .high] ∧
    k.sentBytes 86 = [] ∧ k.sentBytes 87 = [0xA5] ∧ k.txdLevel 521 = .high := by decide +kernel

theorem test_hyp_silence :
    (linked (.watching 9) world).link.source = .watching 9 ∧ reached (at! 8 (linked (.watching 9) world)).time 9 = false ∧
    reached (at! 9 (linked (.watching 9) world)).time 9 = true := by decide +kernel

theorem test_hyp_waiting_request :
    (req 0x10 [] ∈ (asking (req 0x10 []) (replying (List.replicate 4 (okReply false)) world)).link.inbox ∧
      4 ≤ (asking (req 0x10 []) (replying (List.replicate 4 (okReply false)) world)).link.replies.length) ∧
    (req 0x10 [] ∈ (asking (req 0x10 []) (replying [okReply true] world)).link.inbox ∧
      ∃ r ∈ (asking (req 0x10 []) (replying [okReply true] world)).link.replies, r.thenReset = true) ∧
    (req 0x11 [] ∉ (asking (req 0x10 []) world).link.inbox ∧ world.device ≠ .reset ∧
      (asking (req 0x10 []) world).link.inbox.length < 2) ∧
    ((after! .powerOn world).device = .reset ∧ req 0x11 [] ∈ [req 0x11 []] ∧ req 0x11 [] ≠ req 0x10 []) ∧
    (let full (s : State) := { s with link := { s.link with inbox := [req 0x10 [], req 0x10 []] } }
     (full world).device ≠ .reset ∧ req 0x11 [] ∉ (full world).link.inbox ∧ 2 ≤ (full world).link.inbox.length ∧
      (full world).link.replies.length < 4 ∧
      4 ≤ (full (replying (List.replicate 4 (okReply false)) world)).link.replies.length) := by decide +kernel

/-! Requests. Each theorem shows that the executor may take the frame, and the conditions of each clause. -/

theorem test_hyp_generic :
    ((asking (req 0xEE []) State.reset).Takes (req 0xEE []) [] ∧ (0xEE : Byte) ∉ requestCodes) ∧
    ((asking (req 0x52 []) world).Takes (req 0x52 []) [] ∧ (0x52 : Byte) ∈ requestCodes ∧
      ([] : List Byte).length ≠ parameterLength 0x52 []) ∧
    ((asking (req 0x52 [8]) world).Takes (req 0x52 [8]) [] ∧ [(8 : Byte)].length = parameterLength 0x52 [8]) ∧
    ((asking (req 0x52 [7]) State.reset).Takes (req 0x52 [7]) [] ∧ State.reset.device = .starting) := by
  unfold State.Takes; decide +kernel

theorem test_hyp_values : ¬ valuesInRange 0x52 [8] ∧ valuesInRange 0x52 [7] := by
  simp [valuesInRange, field]

theorem test_hyp_frames_agree :
    (Instr.arm 7 [8]).wf = true ∧ (Instr.arm 7 [8]).frame? = some (req 0x52 [8]) ∧ (req 0x52 [8]).wf = true := by decide

theorem test_hyp_device_requests :
    (asking (req 0x10 []) State.reset).Takes (req 0x10 []) [] ∧ (asking (req 0x11 []) State.reset).Takes (req 0x11 []) [] ∧
    (asking (req 0x1F []) world).Ready (req 0x1F []) [] := by
  unfold State.Ready State.Takes; decide +kernel

theorem test_hyp_fetch :
    (asking (req 0x20 [byte 1]) world).Ready (req 0x20 [byte 1]) [] ∧
    (asking (req 0x20 [byte 8]) tripNoticed).Ready (req 0x20 [byte 8]) [] := by
  unfold State.Ready State.Takes; decide +kernel

theorem test_hyp_attention :
    running.attn = true ∧ State.reset.attn = false ∧
    (asking (req 0x21 [byte (0b111 : BitVec 3).toNat]) world).Ready (req 0x21 [byte (0b111 : BitVec 3).toNat]) [] := by
  unfold State.Ready State.Takes; decide +kernel

theorem test_hyp_set_link :
    (asking (req 0x28 (be16 0)) world).Ready (req 0x28 (be16 0)) [] ∧
    (asking (req 0x28 (be16 10)) (linked .tripped world)).Ready (req 0x28 (be16 10)) [] ∧
    (asking (req 0x28 (be16 60000)) (linked (.watching 9) world)).Ready (req 0x28 (be16 60000)) [] := by
  unfold State.Ready State.Takes; decide +kernel

theorem test_hyp_rearm :
    ((asking (req 0x30 [(Source.channel 0).toByte]) world).Ready (req 0x30 [(Source.channel 0).toByte]) [] ∧
      world.sourceTripped (.channel 0) = false) ∧
    ((asking (req 0x30 [(Source.channel 3).toByte]) tripNoticed).Ready (req 0x30 [(Source.channel 3).toByte]) [] ∧
      tripNoticed.sourceTripped (.channel 3) = true ∧ 0 < tripCount tripNoticed.queue.notices (.channel 3)) ∧
    ((asking (req 0x30 [(Source.channel 3).toByte]) world).Ready (req 0x30 [(Source.channel 3).toByte]) [] ∧
      tripCount world.queue.notices (.channel 3) = 0) ∧
    ((asking (req 0x30 [Source.link.toByte]) (linked .tripped world)).Ready (req 0x30 [Source.link.toByte]) [] ∧
      (linked .tripped world).sourceTripped .link = true ∧ tripCount world.queue.notices .link = 0) := by
  unfold State.Ready State.Takes; decide +kernel

theorem test_hyp_banks :
    (Bank.empty.generation = none) ∧ (bankOf 5).generation = some 5 ∧ (5 : Count32).toNat ≤ (5 : Count32).toNat ∧
    (5 : Count32).toNat < (6 : Count32).toNat := by decide +kernel

theorem test_hyp_save_and_erase :
    let busy := stored (bankOf 5) Bank.empty (.erasing none 0) world
    let last := stored (bankOf 4294967295) Bank.empty .idle world
    let free := stored (bankOf 4294967294) Bank.empty .idle world
    ((asking (req 0x38 []) busy).Ready (req 0x38 []) [] ∧ (asking (req 0x39 []) busy).Ready (req 0x39 []) [] ∧
      busy.store.op ≠ .idle) ∧
    ((asking (req 0x38 []) last).Ready (req 0x38 []) [] ∧ last.store.op = .idle ∧
      last.store.newestGeneration = some 4294967295) ∧
    ((asking (req 0x38 []) free).Ready (req 0x38 []) [] ∧ free.store.op = .idle ∧
      free.store.newestGeneration ≠ some 4294967295) ∧
    (asking (req 0x39 []) free).Ready (req 0x39 []) [] := by
  unfold State.Ready State.Takes; decide +kernel

theorem test_hyp_store_events :
    let s := stored (bankOf 5) Bank.empty (.saving .b 6 Image.defaults 0) world
    let e := stored Bank.empty Bank.empty (.erasing (some .a) 0) world
    let n := stored Bank.empty Bank.empty (.erasing none 0) world
    (s.store.op = .saving .b 6 Image.defaults 0 ∧ s.time = 0 ∧ (at! 1 s).time ≠ 0) ∧
      (e.store.op = .erasing (some .a) 0 ∧ e.time = 0 ∧ (at! 1 e).time ≠ 0) ∧ n.store.op = .erasing none 0 ∧
      world.store.op = .idle := by decide +kernel

theorem test_hyp_load_end :
    (State.reset.device = .starting ∧ State.reset.store.newest = none) ∧
    ((stored Bank.empty (bankOf 5) .idle State.reset).store.newest = some .b ∧
      ((stored Bank.empty (bankOf 5) .idle State.reset).store.bank .b).content =
        some { image := Image.defaults, generation := 5, checkMatches := true } ∧ Image.defaults.accepted = true ∧
      ({ Image.defaults with timeout := 9 } : Image).accepted = false) := by decide +kernel

theorem test_hyp_define_pattern :
    let params := [byte 0, levelByte tach.startLevel, byte tach.steps.length] ++ tach.steps.flatMap PatternStep.bytes
    let freed := world.putChannel 0 (chan .idle) |>.putChannel 1 (chan .idle) |>.putChannel 2 (chan .idle)
      |>.putChannel 3 (chan .idle)
    let full := (List.finRange 6).foldl
      (fun s i => s.putPattern ⟨i.val + 1, by omega⟩ (some { tach with steps := List.replicate 16 ⟨0, 1, false⟩ })) running
    tach.Lawful ∧
    ((asking (req 0x40 params) world).Ready (req 0x40 params) [] ∧
      (∃ c : Fin 8, world.namesPattern 0 c = true ∧ world.channels[c].state ≠ .idle) ∧ world.patterns[0] ≠ none) ∧
    ((asking (req 0x40 params) freed).Ready (req 0x40 params) [] ∧
      (∀ c : Fin 8, freed.namesPattern 0 c = true → freed.channels[c].state = .idle) ∧
      tach.steps.length ≤ 96 - freed.stepsInUse + 2) ∧
    ((asking (req 0x40 params) full).Ready (req 0x40 params) [] ∧
      (∀ c : Fin 8, full.namesPattern 0 c = true → full.channels[c].state = .idle) ∧ full.patterns[0] = none ∧
      96 - full.stepsInUse + 0 < tach.steps.length) := by
  unfold State.Ready State.Takes Pattern.Lawful; decide +kernel

theorem test_hyp_delete_pattern :
    ((asking (req 0x41 [byte 15]) world).Ready (req 0x41 [byte 15]) [] ∧ world.patterns[15] = none) ∧
    ((asking (req 0x41 [byte 0]) world).Ready (req 0x41 [byte 0]) [] ∧ world.patterns[0] ≠ none ∧
      ∃ c : Fin 8, world.namesPattern 0 c = true) ∧
    ((asking (req 0x41 [byte 0]) (running.putPattern 0 (some tach))).Ready (req 0x41 [byte 0]) [] ∧
      (running.putPattern 0 (some tach)).patterns[0] = some tach ∧
      ∀ c : Fin 8, (running.putPattern 0 (some tach)).namesPattern 0 c = false) := by
  unfold State.Ready State.Takes; decide +kernel

theorem test_hyp_reads :
    ((asking (req 0x42 [byte 15]) world).Ready (req 0x42 [byte 15]) [] ∧ world.patterns[15] = none) ∧
    ((asking (req 0x42 [byte 0]) world).Ready (req 0x42 [byte 0]) [] ∧ world.patterns[0] = some tach) ∧
    (asking (req 0x71 [byte 7]) world).Ready (req 0x71 [byte 7]) [] ∧
    (asking (req 0x57 [byte 3]) world).Ready (req 0x57 [byte 3]) [] ∧
    ((asking (req 0x58 [byte 7]) world).Ready (req 0x58 [byte 7]) [] ∧ world.channels[7].config = none) ∧
    ((asking (req 0x58 [byte 0]) world).Ready (req 0x58 [byte 0]) [] ∧ world.channels[0].config = some cfg0) := by
  unfold State.Ready State.Takes; decide +kernel

theorem test_hyp_configure :
    let params := byte 0 :: cfg0.bytes
    cfg0.InRange ∧
    ((asking (req 0x50 params) world).Ready (req 0x50 params) [] ∧ world.channels[0].state ≠ .idle) ∧
    ((asking (req 0x50 params) running).Ready (req 0x50 params) [] ∧ running.channels[0].state = .idle ∧
      running.patterns[cfg0.pattern] = none) ∧
    ((asking (req 0x50 (byte 5 :: cfg0.bytes)) world).Ready (req 0x50 (byte 5 :: cfg0.bytes)) [] ∧
      world.channels[5].state = .idle ∧ world.patterns[cfg0.pattern] = some tach) := by
  unfold State.Ready State.Takes ChannelConfig.InRange; decide +kernel

/-- The conditions of CLEAR_CHANNEL, CLEAR_OBSERVED and ARM. -/
theorem test_hyp_clear_and_arm :
    (∀ code : Fin 256, code.val ∈ [0x51, 0x52, 0x59] → ∀ c : Fin 8,
      (asking (req (byte code) [byte c]) world).Ready (req (byte code) [byte c]) []) ∧
    world.channels[0].state ≠ .idle ∧ (world.channels[5].state = .idle ∧ world.channels[5].config = none) ∧
    (world.channels[4].state = .idle ∧ world.channels[4].config = some cfg0 ∧ world.patterns[cfg0.pattern] = some tach ∧
      tripCount world.queue.notices (.channel 4) = 0) ∧
    ((tripNoticed.putChannel 3 (chan .idle)).channels[3].state = .idle ∧
      (tripNoticed.putChannel 3 (chan .idle)).channels[3].config = some cfg0 ∧
      0 < tripCount (tripNoticed.putChannel 3 (chan .idle)).queue.notices (.channel 3) ∧
      (asking (req 0x52 [byte 3]) (tripNoticed.putChannel 3 (chan .idle))).Ready (req 0x52 [byte 3]) []) := by
  unfold State.Ready State.Takes; decide +kernel

/-- The conditions of PAUSE, RESUME, DISARM and INJECT: a channel in each state. -/
theorem test_hyp_channel_states :
    (∀ code : Fin 256, code.val ∈ [0x53, 0x54, 0x55, 0x56] → ∀ c : Fin 8,
      (asking (req (byte code) [byte c]) world).Ready (req (byte code) [byte c]) []) ∧
    world.channels[0].state = .tracking 0 0 2020 ∧ world.channels[1].state = .seeking (some 5000) ∧
    (world.channels[2].state = .paused ∧ world.channels[2].config = some cfg0) ∧ world.channels[3].state = .tripped ∧
    world.channels[4].state = .idle := by
  unfold State.Ready State.Takes; decide +kernel

theorem test_hyp_set_reaction :
    let params (i : Fin 32) (r : Reaction) :=
      [byte i, 0, r.source.toByte, byte r.output] ++ be16 r.drive.code ++ [byte r.priority]
    ((asking (req 0x60 [byte 31, 1, 9, 9, 9, 9, 9]) world).Ready (req 0x60 [byte 31, 1, 9, 9, 9, 9, 9]) [] ∧
      world.reactions[31] = none) ∧
    ((asking (req 0x60 (params 1 react0)) world).Ready (req 0x60 (params 1 react0)) [] ∧
      world.sourceTripped react0.source = true) ∧
    ((asking (req 0x60 (params 0 { react0 with source := .link })) world).Ready
        (req 0x60 (params 0 { react0 with source := .link })) [] ∧ world.reactions[0] = some react0) ∧
    ((asking (req 0x60 (params 31 { react0 with source := .link })) world).Ready
        (req 0x60 (params 31 { react0 with source := .link })) [] ∧ world.sourceTripped .link = false) := by
  unfold State.Ready State.Takes; decide +kernel

theorem test_hyp_read_reaction_and_output :
    ((asking (req 0x61 [byte 31]) world).Ready (req 0x61 [byte 31]) [] ∧ world.reactions[31] = none) ∧
    ((asking (req 0x61 [byte 0]) world).Ready (req 0x61 [byte 0]) [] ∧ world.reactions[0] = some react0) ∧
    (asking (req 0x69 [byte 5]) world).Ready (req 0x69 [byte 5]) [] := by
  unfold State.Ready State.Takes; decide +kernel

theorem test_hyp_set_output :
    let params (o : Fin 6) (d : Drive) (r : Fin 5) := [byte o] ++ be16 d.code ++ [byte r]
    (∀ o : Fin 6, ∀ d ∈ [Drive.duty 0, Drive.duty 4095, Drive.level .low, Drive.level .high], ∀ r ∈ [(2 : Fin 5), 4],
      (asking (req 0x68 (params o d r)) world).Ready (req 0x68 (params o d r)) []) ∧
    world.outputs[0].rate = 2 ∧ world.claims[0] ≠ [] ∧ world.claims[1] = [] ∧ world.outputs[1].applied.isDuty = true ∧
    (Drive.duty 0).isDuty = true ∧ world.outputs[1].frameStart = some 1024 ∧ world.claims[2] = [] ∧
    world.outputs[2].applied.isDuty = false ∧ (4 : Fin 5) ≠ world.outputs[0].rate := by
  unfold State.Ready State.Takes; decide +kernel

theorem test_hyp_set_line :
    let params (f : Nat) (clear : Bool) := [byte (0 : Fin 8)] ++ be16 f ++ [if clear then (1 : Byte) else 0]
    let s := at! 2000 world
    (∀ b : Bool, (asking (req 0x70 (params 0 b)) s).Ready (req 0x70 (params 0 b)) [] ∧
      (asking (req 0x70 (params 1023 b)) s).Ready (req 0x70 (params 1023 b)) []) ∧
    (s.lines[0].runStart = none ∧ s.channels[0].config = some cfg0 ∧ cfg0.line = 0 ∧
      s.patterns[cfg0.pattern] = some tach ∧ tach.steps[0]? = some ⟨1000, 2000, true⟩ ∧
      s.channels[0].state = .tracking 0 0 2020 ∧ reached s.time (after 0 (2000 + 1023)) = false ∧
      reached s.time (after 0 (2000 + 0)) = true) ∧
    s.namesLine 0 5 = false ∧
    (let r := at! 5 (world.putLine 0 (runningLine world.lines[0]))
     r.lines[0].runStart = some 0 ∧ decide (5 ≤ elapsed r.time 0) = true ∧ decide (6 ≤ elapsed r.time 0) = false) ∧
    (reached (at! 2019 world).time (after 0 (2000 + world.lines[0].filter)) = false ∧
      reached (at! 2020 world).time (after 0 (2000 + world.lines[0].filter)) = true ∧
      ((List.finRange 8).filter fun c => world.namesLine 0 c).length = 5) := by
  unfold State.Ready State.Takes; decide +kernel

/-! Edges, deviations, notices, claims and outputs -/

theorem test_hyp_runs :
    let w := world.tick
    let r := at! 20 (w.putLine 0 (runningLine w.lines[0]))
    (State.reset.device ≠ .running ∧ world.device = .running ∧ world.lines[0].sampled = true) ∧
    (w.device = .running ∧ w.lines[0].sampled = false ∧ w.lines[0].raw = .low ∧ w.lines[0].runStart = none ∧
      w.lines[0].filter ≠ 0) ∧
    (r.device = .running ∧ r.lines[0].sampled = false ∧ r.lines[0].runStart = some 0 ∧ r.lines[0].raw = .high ∧
      reached r.time (after 0 r.lines[0].filter) = true ∧ reached (at! 19 r).time (after 0 r.lines[0].filter) = false) ∧
    (let z := w.putLine 0 { w.lines[0] with filter := 0 }
     z.device = .running ∧ z.lines[0].sampled = false ∧ z.lines[0].runStart = none ∧ z.lines[0].filter = 0) := by
  decide +kernel

theorem test_hyp_edge_lines :
    world.namesLine 0 0 = true ∧ world.namesLine 0 5 = false ∧ (∀ c : Fin 8, world.namesLine 7 c = false) ∧
    (let s := running.putChannel 5 { Channel.atReset with config := some { cfg0 with line := 2 } }
     ∀ d : Fin 8, s.namesLine 2 d = decide (d = 5)) := by decide +kernel

theorem test_hyp_sync_edge :
    world.channels[1].closure.all (fun cl => cl.closing ≠ 5) = true ∧ world.channels[1].state = .seeking (some 5000) ∧
    world.channels[1].config = some cfg0 ∧ world.patterns[cfg0.pattern] = some tach ∧
    tach.steps[0]? = some ⟨1000, 2000, true⟩ ∧ Level.low ≠ tach.startLevel ∧ Level.high = tach.startLevel ∧
    reached (at! 2019 world).time (after 0 (2000 + world.lines[cfg0.line].filter)) = false ∧
    reached (at! 2020 world).time (after 0 (2000 + world.lines[cfg0.line].filter)) = true := by decide +kernel

/-- After its deadline CH0 holds the deadline closure, in SEEKING, and still when it is paused or disarmed. -/
theorem test_hyp_closure :
    let d := after! (.stepDeadline 0) (at! 2020 world)
    let p := after! (.pause 7 [0]) (asking (req 0x54 [0]) d)
    let i := after! (.disarm 7 [0]) (asking (req 0x53 [0]) d)
    (∀ s ∈ [d, p, i], s.channels[0].closure = some ⟨0, 2000⟩ ∧ s.channels[0].config = some cfg0 ∧
      s.patterns[cfg0.pattern] = some tach ∧ tach.steps[0]? = some ⟨1000, 2000, true⟩) ∧
    d.channels[0].state = .seeking (some 7020) ∧ p.channels[0].state = .paused ∧ i.channels[0].state = .idle ∧
    (let t := after! (.stepDeadline 0) ((at! 2020 world).putChannel 0 (chan (.tracking 0 0 2020) 1))
     t.channels[0].closure = some ⟨0, 2000⟩ ∧ t.channels[0].state = .tripped) := by decide +kernel

/-- The step of CH0 ends at the two ends of its window, and outside it at either side. -/
theorem test_hyp_step_window :
    let st : PatternStep := ⟨1000, 2000, true⟩
    let w := (world.putChannel 0 { chan (.tracking 0 0 2020) with strikes := 1 })
    world.channels[0].closure.all (fun cl => cl.closing ≠ 1000) = true ∧ world.channels[0].state = .tracking 0 0 2020 ∧
    world.channels[0].config = some cfg0 ∧ world.patterns[cfg0.pattern] = some tach ∧ tach.steps[0]? = some st ∧
    (st.min ≤ elapsed 1000 0 ∧ elapsed 1999 0 < st.max ∧ elapsed 999 0 < st.min ∧ st.max ≤ elapsed 2000 0) ∧
    (tach.steps[1]? = some ⟨500, 600, false⟩ ∧
      reached (at! 1020 world).time (after 1000 (600 + world.lines[cfg0.line].filter)) = false ∧
      reached (at! 1620 world).time (after 1000 (600 + world.lines[cfg0.line].filter)) = true) ∧
    ((at! 1019 world).handleDeviation 0 { kind := .early, step := some 0, measured := some 999, time := 999 }).channels[0].state
      ≠ .tripped ∧
    ((at! 1019 w).handleDeviation 0 { kind := .early, step := some 0, measured := some 999, time := 999 }).channels[0].state
      = .tripped ∧
    reached (at! 1019 world).time (after 999 (st.max + world.lines[cfg0.line].filter)) = false ∧
    reached (at! 3019 world).time (after 999 (st.max + world.lines[cfg0.line].filter)) = true := by decide +kernel

theorem test_hyp_channel_expiries :
    reached (at! 2019 world).time 2020 = false ∧ reached (at! 2020 world).time 2020 = true ∧
    reached (at! 4999 world).time 5000 = false ∧ reached (at! 5000 world).time 5000 = true := by decide +kernel

theorem test_hyp_deviation :
    world.channels[0].config = some cfg0 ∧ world.channels[0].strikes + 1 ≠ cfg0.strikeLimit ∧
    (world.putChannel 0 (chan (.seeking none) 1)).channels[0].strikes + 1 = cfg0.strikeLimit := by decide +kernel

theorem test_hyp_orders_agree :
    let s := at! 2020 world
    s.Lawful ∧ s.channels[0].state = .tracking 0 0 s.time ∧ s.channels[0].config = some cfg0 ∧
      s.patterns[cfg0.pattern] = some tach ∧ tach.steps[0]? = some ⟨1000, 2000, true⟩ ∧ s.channels[0].closure = none :=
  ⟨test_world_lawful, by decide +kernel⟩

theorem test_hyp_offer :
    let n (b : NoticeBody) : Notice := { sequence := 0, time := 0, source := .trip .link, body := b }
    (n (.tripLink 500 0)).isTrip = true ∧ (n (.mark 0 9 0)).isTrip = false ∧
    (List.replicate 38 (n (.mark 0 9 0))).countP (fun m => !m.isTrip) < 39 ∧
    39 ≤ (List.replicate 39 (n (.mark 0 9 0))).countP (fun m => !m.isTrip) := by decide +kernel

theorem test_hyp_claims :
    world.claims[0] ≠ [] ∧ world.claims[1] = [] ∧ winner world.claims[0] = some claim0 ∧
    winner (world.releaseClaims (.channel 3)).claims[0] = none ∧
    winner (State.makeClaims { world with claims := Vector.replicate 6 [] } (.channel 3)).claims[0] = some claim0 ∧
    winner (world.makeClaims (.channel 3)).claims[0] = some claim0 := by decide +kernel

theorem test_hyp_frames :
    world.outputs[0].frameStart = none ∧ world.outputs[1].frameStart = some 1024 ∧
    reached (at! 2047 world).time (after 1024 (256 * 2 ^ world.outputs[1].rate.val)) = false ∧
    reached (at! 2048 world).time (after 1024 (256 * 2 ^ world.outputs[1].rate.val)) = true ∧
    world.outputs[1].pending = false ∧ world.outputs[1].base.isDuty = true ∧
    (world.putOutput 1 { world.outputs[1] with pending := true }).outputs[1].pending = true := by decide +kernel

theorem test_hyp_output_line :
    State.reset.device ≠ .running ∧ world.device = .running ∧ world.outputs[0].applied = .level .high ∧
    world.outputs[1].applied = .duty 1234 ∧ world.outputs[1].frameStart = some 1024 := by decide +kernel

/-! One step each, on values the spec works out -/

/-- A request carried out: the status and data of its reply. -/
def ask (code : Byte) (params : List Byte) (s : State) : State := after! (Instr.ofFrame (req code params)) s

theorem test_arm :
    reply (ask 0x52 [4] world) = some (.ok, [4]) ∧ (ask 0x52 [4] world).channels[4].state = .seeking (some 5000) ∧
    reply (ask 0x52 [0] world) = some (.wrongState, []) ∧ reply (ask 0x52 [5] world) = some (.notConfigured, []) := by
  decide +kernel

theorem test_starting_refusals :
    reply (ask 0x52 [4] State.reset) = some (.notReady, []) ∧ reply (ask 0x52 [9] State.reset) = some (.badValue, []) ∧
    reply (ask 0x52 [] State.reset) = some (.badLength, []) ∧ reply (ask 0xEE [] State.reset) = some (.unknownRequest, []) :=
  by decide +kernel

/-- Reply data lengths of the table of R173. -/
theorem test_reply_lengths :
    (reply (ask 0x10 [] world)).map (·.2.length) = some 27 ∧ (reply (ask 0x57 [0] world)).map (·.2.length) = some 56 ∧
    (reply (ask 0x61 [0] world)).map (·.2.length) = some 12 ∧ (reply (ask 0x69 [0] world)).map (·.2.length) = some 24 := by
  decide +kernel

/-- The fan of 3.7: pattern 3, CH5 on line 2, strike limit 3, forgive cycles 2, in TRACKING. -/
def fan (t : Time) (k : Nat) (start : Time) (strikes goodRun : Nat) : State :=
  at! t <| (running.putPattern 3 (some { startLevel := .high, steps := [⟨2000, 8000, false⟩, ⟨2000, 8000, false⟩] })).putChannel
    5 { Channel.atReset with
        config := some { line := 2, pattern := 3, strikeLimit := 3, forgive := 2, acquire := some 30000, report := 0b110,
                         bootArmed := false }
        state := .tracking k start (after start 8020), strikes, goodRun, observed := clearedTable 2 }

/-- Event 6 of 3.7: the step deadline. -/
theorem test_fan_deadline :
    let c := (after! (.stepDeadline 5) (fan 1025420 1 1017400 0 1)).channels[5]
    c.state = .seeking (some 1055420) ∧ c.strikes = 1 ∧ c.goodRun = 0 ∧ c.counts.late = 1 := by decide +kernel

/-- Event 11 of 3.7: the second good cycle forgives the strike. -/
theorem test_fan_forgiveness :
    let c := ((fan 1060070 1 1055100 1 1).deliverEdge 2 .high 1060050).channels[5]
    c.state = .tracking 0 1060050 1068070 ∧ c.strikes = 0 ∧ c.goodRun = 0 ∧ c.cycles = 1 ∧
      c.observed[1]? = some { count := 1, shortest := some 4950, longest := some 4950 } := by decide +kernel

/-- The example of R26: F is set to 0 while an edge inside the window qualifies. -/
theorem test_set_line_example :
    let s := at! 5500 <| ((running.putPattern 0 (some { startLevel := .high, steps := [⟨1, 5000, false⟩, ⟨1, 5000, false⟩] })).putLine
      0 { running.lines[0] with filter := 1000, raw := .low, filtered := .high, runStart := some 4990 }).putChannel 1
      (chan (.tracking 0 0 6000))
    let t := ask 0x70 [0, 0, 0, 0] s
    t.channels[1].state = .tracking 1 4990 9990 ∧ t.lines[0].filtered = .low ∧
      reply t = some (.ok, [0, 0, 0, 0, 0, 0, 0, 0, 0, 1]) := by decide +kernel

/-- Orders of the turns of two channels in a SET_LINE that accepts an edge: CH0 may be late before or after CH1 acts on the edge,
and each acts on the edge first. -/
theorem test_turn_orders :
    repeats [] [0, 0, 1, 1] = [(0, false), (0, true), (1, false), (1, true)] ∧
    repeats [] [0, 1, 0, 1] = [(0, false), (1, false), (0, true), (1, true)] ∧
    (∃ n, arrange n [0, 1, 0, 1] = [(0 : Fin 8), 0, 1, 1]) ∧ (∃ n, arrange n [0, 1, 0, 1] = [(0 : Fin 8), 1, 0, 1]) ∧
    ∃ n, arrange n [0, 1, 0, 1] = [(1 : Fin 8), 0, 1, 0] :=
  ⟨by decide, by decide, ⟨8, by decide⟩, ⟨0, by decide⟩, ⟨3, by decide⟩⟩

/-- A SET_LINE that accepts an edge and makes the step that it begins late at once: both notices, the edge's first (R113). -/
theorem test_set_line_edge_then_late :
    let p : Pattern := { startLevel := .high, steps := [⟨1, 5000, true⟩, ⟨1, 100, false⟩] }
    let s := at! 5500 <| ((running.putPattern 0 (some p)).putLine 0
      { running.lines[0] with filter := 1000, raw := .low, filtered := .high, runStart := some 4990 }).putChannel 1
      (chan (.tracking 0 0 6000))
    (ask 0x70 [0, 0, 0, 0] s).queue.notices.tail =
      [⟨1, 4990, .trip (.channel 1), .mark 0 4990 0⟩,
        ⟨2, 5090, .trip (.channel 1), .deviation .late (some 1) (some 100) 1⟩] := by decide +kernel

/-- The two orders of an edge and the step deadline at one time (R66). -/
theorem test_orders :
    let s := at! 2020 world
    (after! (.stepDeadline 0) s).edgeToChannel 0 .low 2000 = s.edgeToChannel 0 .low 2000 := by decide +kernel

/-- An excursion inside one microsecond: the sample has been taken, so the return is seen at the next microsecond (R19). -/
theorem test_one_sample_a_microsecond :
    let s := after! (.rawChange 0 .low) (after! (.rawChange 0 .high) running.tick)
    s.lines[0].pin = .low ∧ s.lines[0].raw = .high ∧ s.lines[0].runStart = some 1 ∧ s.lines[0].runts = 0 ∧
      s.dueEvents = [] ∧ s.tick.dueEvents = [.rawChange 0 .low] ∧
      (after! (.rawChange 0 .low) s.tick).lines[0].runts = 1 := by decide +kernel

/-- STATUS in STARTING reports t of the image once the plan is written (R151, R169). -/
theorem test_status_in_starting :
    let s := stored (bankOf 5 { Image.defaults with timeout := 500 }) Bank.empty .idle State.reset
    (reply (ask 0x11 [] s)).map (fun r => (r.2.drop 8).take 3) = some [0, 0, 0] ∧
    (reply (ask 0x11 [] s.writePlan)).map (fun r => (r.2.drop 8).take 3) = some [0, 1, 0xF4] := by decide +kernel

/-- A trip: claims, the immediate change, the TRIP notice. -/
theorem test_trip :
    let s := (world.putChannel 0 (chan (.tracking 0 0 2020) 1)).putReaction 5 (some ⟨.channel 0, 2, .duty 9, 1⟩)
    let t := after! (.stepDeadline 0) (at! 2020 s)
    t.channels[0].state = .tripped ∧ t.claims[2] = [⟨5, .channel 0, 1, .duty 9⟩] ∧ t.outputs[2].applied = .duty 9 ∧
      t.outputs[2].frameStart = some 2020 ∧
      t.queue.notices.getLast? = some ⟨1, 2000, .trip (.channel 0), .tripChannel .late (some 0) (some 2000) 2 1⟩ := by
  decide +kernel

/-- A save into the other bank, with the next generation, and its completion. -/
theorem test_save :
    let s := ask 0x38 [] (stored (bankOf 5) (bankOf 4) .idle world)
    reply s = some (.ok, [1, 0, 0, 0, 6]) ∧ s.store.bankB = Bank.empty ∧
      (after! (.saveCompletion true) (at! 1 s)).store.newestGeneration = some 6 := by decide +kernel

/-- The plan of the world, saved, loads back at the next start. -/
theorem test_plan_loads :
    let t := after! .planLoadEnd (stored (bankOf 1 world.snapshot) Bank.empty .idle State.reset)
    t.patterns = world.patterns ∧ t.reactions = world.reactions ∧ t.channels[3].config = some cfg0 ∧
      t.queue.notices.map (·.body) = [.started .powerOn .bankA (some 1) 0] := by decide +kernel

/-- A claim of LEVEL HIGH is released by DISARM, and the base is applied at once. -/
theorem test_disarm_releases :
    let t := ask 0x53 [3] world
    t.claims[0] = [] ∧ t.outputs[0].applied = .level .low ∧ t.channels[3].state = .idle ∧ reply t = some (.ok, [3, 4]) := by
  decide +kernel

/-- A base change between two duties waits for the frame end. -/
theorem test_set_output_waits :
    let t := ask 0x68 [1, 0, 9, 2] (at! 1500 world)
    t.outputs[1].pending = true ∧ reply t = some (.ok, [1, 1, 1, 0, 0, 8, 0]) ∧
      (after! (.frameEndExpiry 1) (at! 2048 t)).outputs[1].applied = .duty 9 := by decide +kernel

end Sys2Proof.Tests
end

/-! Steps that keep the patterns and the configurations, channel by channel. -/

namespace Sys2Proof.Machine

/-! The law of one channel -/

/-- What `ChannelLawAt` asks of a channel configured by `cfg` whose named pattern is `p`. -/
structure Channel.Configured (ch : Channel) (cfg : ChannelConfig) (p : Pattern) : Prop where
  range : cfg.InRange
  counts : ch.CountsLawful cfg
  table : ch.observed.length = p.steps.length
  step : ch.state.StepBelow p.steps.length

theorem channelLawAt_configured {s : State} {c : Fin 8} {cfg : ChannelConfig} (hc : s.channels[c].config = some cfg) :
    s.ChannelLawAt c ↔ ∃ p, s.patterns[cfg.pattern] = some p ∧ s.channels[c].Configured cfg p := by
  unfold State.ChannelLawAt
  rw [hc]
  cases hp : s.patterns[cfg.pattern] with
  | none => simp [hp]
  | some p =>
    simp only [hp, Option.some.injEq, exists_eq_left']
    exact ⟨fun ⟨hr, hn, ht, hk⟩ => ⟨hr, hn, ht, hk⟩, fun ⟨hr, hn, ht, hk⟩ => ⟨hr, hn, ht, hk⟩⟩

theorem channelLawAt_unconfigured {s : State} {c : Fin 8} (hc : s.channels[c].config = none) :
    s.ChannelLawAt c ↔
      s.channels[c].state = .idle ∧ s.channels[c].strikes = 0 ∧ s.channels[c].goodRun = 0 ∧ s.channels[c].observed = [] := by
  unfold State.ChannelLawAt
  rw [hc]

/-- A lawful channel outside IDLE has a configuration (R33). -/
theorem configured_of_active {s : State} {c : Fin 8} (h : s.ChannelLawAt c) (ha : s.channels[c].state ≠ .idle) :
    ∃ cfg, s.channels[c].config = some cfg := by
  cases hc : s.channels[c].config with
  | none => exact absurd ((channelLawAt_unconfigured hc).1 h).1 ha
  | some cfg => exact ⟨cfg, rfl⟩

/-- The law of a channel reads its record and the pattern that it names. -/
theorem channelLawAt_of_named {s t : State} {c : Fin 8} (h : s.ChannelLawAt c) (hc : t.channels[c] = s.channels[c])
    (hp : ∀ cfg, s.channels[c].config = some cfg → t.patterns[cfg.pattern] = s.patterns[cfg.pattern]) :
    t.ChannelLawAt c := by
  cases hs : s.channels[c].config with
  | none => exact (channelLawAt_unconfigured (by rw [hc, hs])).2 (by rw [hc]; exact (channelLawAt_unconfigured hs).1 h)
  | some cfg =>
    exact (channelLawAt_configured (by rw [hc, hs])).2 (by rw [hc, hp cfg hs]; exact (channelLawAt_configured hs).1 h)

theorem channelLawAt_of_eq {s t : State} {c : Fin 8} (h : s.ChannelLawAt c) (hp : t.patterns = s.patterns)
    (hc : t.channels[c] = s.channels[c]) : t.ChannelLawAt c :=
  channelLawAt_of_named h hc fun _ _ => by rw [hp]

/-- The counts of a channel outside IDLE and TRIPPED are lawful when the strikes are below the limit and the good run is
within the forgive cycles (R31, R47, R62). -/
theorem countsLawful_active {ch : Channel} {cfg : ChannelConfig} (hi : ch.state ≠ .idle) (ht : ch.state ≠ .tripped)
    (hs : ch.strikes < cfg.strikeLimit) (hg : if cfg.forgive = 0 then ch.goodRun = 0 else ch.goodRun < cfg.forgive) :
    ch.CountsLawful cfg :=
  ⟨by rw [if_neg ht]; exact hs, fun h => absurd h hi, hg⟩

/-- Nothing struck and nothing run: lawful in every state but TRIPPED. -/
theorem countsLawful_cleared {ch : Channel} {cfg : ChannelConfig} (hr : cfg.InRange) (ht : ch.state ≠ .tripped)
    (hs : ch.strikes = 0) (hg : ch.goodRun = 0) : ch.CountsLawful cfg := by
  obtain ⟨hlimit, -⟩ := hr
  refine ⟨?_, fun _ => ⟨hs, hg⟩, ?_⟩
  · rw [if_neg ht]; omega
  · split
    · exact hg
    · omega

/-! Steady steps -/

/-- `t` has the patterns and the configurations of `s`, and every channel that was lawful is. -/
structure State.Steady (s t : State) : Prop where
  patterns : t.patterns = s.patterns
  config : ∀ c : Fin 8, t.channels[c].config = s.channels[c].config
  law : ∀ c : Fin 8, s.ChannelLawAt c → t.ChannelLawAt c

theorem steady_of_eq {s t : State} (hp : t.patterns = s.patterns) (hc : t.channels = s.channels) : s.Steady t :=
  ⟨hp, fun c => by rw [hc], fun c h => channelLawAt_of_eq h hp (by rw [hc])⟩

theorem steady_refl (s : State) : s.Steady s := steady_of_eq rfl rfl

theorem steady_putLine (s : State) (l : Fin 8) (x : Line) : s.Steady (s.putLine l x) := steady_of_eq rfl rfl

theorem steady_offer (s : State) (now : Time) (src : NoticeSource) (b : NoticeBody) : s.Steady (s.offer now src b) :=
  steady_of_eq rfl rfl

theorem steady_trans {s t u : State} (h : s.Steady t) (k : t.Steady u) : s.Steady u :=
  ⟨k.patterns.trans h.patterns, fun c => (k.config c).trans (h.config c), fun c hl => k.law c (h.law c hl)⟩

theorem steady_foldl {α : Type} {f : α → State → State} (hf : ∀ (x : α) (t : State), t.Steady (f x t)) (xs : List α)
    (s : State) : s.Steady (xs.foldl (fun t x => f x t) s) := by
  induction xs generalizing s with
  | nil => exact steady_refl s
  | cons x xs ih => exact steady_trans (hf x s) (ih (f x s))

variable {s t : State} {c : Fin 8}

/-- A turn of channel `c` is steady when the channel keeps its configuration and its own law. -/
theorem steady_of_turn (h : s.TurnOf c t) (hc : t.channels[c].config = s.channels[c].config)
    (hl : s.ChannelLawAt c → t.ChannelLawAt c) : s.Steady t where
  patterns := h.patterns
  config d := by
    by_cases hd : c = d
    · subst hd; exact hc
    · rw [h.others d hd]
  law d := by
    by_cases hd : c = d
    · subst hd; exact hl
    · exact fun hs => channelLawAt_of_eq hs h.patterns (h.others d hd)

/-- A turn of a configured channel is steady when its record stays lawful for its configuration and pattern. -/
theorem steady_of_turn_configured {cfg : ChannelConfig} (h : s.TurnOf c t) (hs : s.channels[c].config = some cfg)
    (ht : t.channels[c].config = some cfg)
    (hk : ∀ p, s.patterns[cfg.pattern] = some p → s.channels[c].Configured cfg p → t.channels[c].Configured cfg p) :
    s.Steady t := by
  refine steady_of_turn h (ht.trans hs.symm) fun hl => ?_
  obtain ⟨p, hp, hch⟩ := (channelLawAt_configured hs).1 hl
  exact (channelLawAt_configured ht).2 ⟨p, by rw [h.patterns]; exact hp, hk p hp hch⟩

/-- A turn of a channel outside IDLE is steady when its record stays lawful; such a channel is configured (R33). -/
theorem steady_of_turn_active (h : s.TurnOf c t) (hi : s.channels[c].state ≠ .idle)
    (hc : t.channels[c].config = s.channels[c].config)
    (hk : ∀ cfg p, s.channels[c].config = some cfg → s.patterns[cfg.pattern] = some p → s.channels[c].Configured cfg p →
      t.channels[c].Configured cfg p) : s.Steady t := by
  refine steady_of_turn h hc fun hl => ?_
  obtain ⟨cfg, hs⟩ := configured_of_active hl hi
  exact (steady_of_turn_configured h hs (hc.trans hs) fun p => hk cfg p hs).law c hl

/-- Writing the record of a configured channel is steady when the record stays lawful. -/
theorem steady_putChannel {cfg : ChannelConfig} {x : Channel} (hs : s.channels[c].config = some cfg)
    (hx : x.config = some cfg)
    (hk : ∀ p, s.patterns[cfg.pattern] = some p → s.channels[c].Configured cfg p → x.Configured cfg p) :
    s.Steady (s.putChannel c x) := by
  have he := channels_get_putChannel_self s c x
  exact steady_of_turn_configured (turn_putChannel s c x) hs (by rw [he]; exact hx) fun p hp h => by rw [he]; exact hk p hp h

theorem patternOf_some {p : Pattern} (h : s.patternOf c = some p) :
    ∃ cfg, s.channels[c].config = some cfg ∧ s.patterns[cfg.pattern] = some p := by
  unfold State.patternOf at h
  cases hc : s.channels[c].config with
  | none => rw [hc] at h; cases h
  | some cfg => rw [hc] at h; exact ⟨cfg, rfl, h⟩

/-! The Channel Engine -/

theorem turn_seek (s : State) (c : Fin 8) : s.TurnOf c (s.seek c) := turn_putChannel s c _

theorem channel_seek (s : State) (c : Fin 8) :
    (s.seek c).channels[c] =
      { s.channels[c] with state := .seeking ((s.channels[c].config.bind (·.acquire)).map (after s.time)) } := by
  unfold State.seek
  rw [channels_get_putChannel_self]
  generalize s.channels[c] = ch
  obtain ⟨config⟩ := ch
  cases config <;> rfl

/-- A channel outside IDLE and TRIPPED stays lawful when it enters SEEKING. -/
theorem steady_seek (hi : s.channels[c].state ≠ .idle) (ht : s.channels[c].state ≠ .tripped) : s.Steady (s.seek c) := by
  have he := channel_seek s c
  refine steady_of_turn_active (turn_seek s c) hi (by rw [he]) fun cfg p _ _ h => ?_
  obtain ⟨hs, -, hg⟩ := h.counts
  rw [if_neg ht] at hs
  rw [he]
  exact ⟨h.range, countsLawful_active nofun nofun hs hg, h.table, trivial⟩

theorem steady_handleDeviation (dev : Deviation) (ht : s.channels[c].state ≠ .tripped) :
    s.Steady (s.handleDeviation c dev) := by
  cases hc : s.channels[c].config with
  | none =>
    have he : s.handleDeviation c dev = s := by unfold State.handleDeviation; rw [hc]
    rw [he]
    exact steady_refl s
  | some cfg =>
    have he := handleDeviation_channel s c dev cfg hc
    refine steady_of_turn_configured (turn_handleDeviation s c dev) hc (by rw [he]; exact hc) fun p _ h => ?_
    obtain ⟨hs, -, -⟩ := h.counts
    rw [if_neg ht] at hs
    have hg : if cfg.forgive = 0 then 0 = 0 else 0 < cfg.forgive := by split <;> omega
    rw [he]
    split
    · next hlimit => exact ⟨h.range, ⟨hlimit, nofun, hg⟩, h.table, trivial⟩
    · next hlimit =>
      have hlt : s.channels[c].strikes + 1 < cfg.strikeLimit := by omega
      exact ⟨h.range, countsLawful_active nofun nofun hlt hg, h.table, trivial⟩

/-- A record in TRACKING may enter a step of its pattern. -/
theorem configured_tracking {ch : Channel} {cfg : ChannelConfig} {p : Pattern} (h : ch.Configured cfg p)
    (ht : ch.state ≠ .tripped) (k : Nat) (start due : Time) (hk : k < p.steps.length) :
    ({ ch with state := .tracking k start due } : Channel).Configured cfg p := by
  obtain ⟨hs, -, hg⟩ := h.counts
  rw [if_neg ht] at hs
  exact ⟨h.range, countsLawful_active nofun nofun hs hg, h.table, hk⟩

theorem steady_putTracking {p : Pattern} {k : Nat} (start due : Time) (hp : s.patternOf c = some p)
    (hk : k < p.steps.length) (ht : s.channels[c].state ≠ .tripped) :
    s.Steady (s.putChannel c { s.channels[c] with state := .tracking k start due }) := by
  obtain ⟨cfg, hc, hp⟩ := patternOf_some hp
  refine steady_putChannel hc hc fun q hq h => ?_
  obtain rfl : p = q := Option.some.inj (hp.symm.trans hq)
  exact configured_tracking h ht k start due hk

theorem steady_enterStep (k : Nat) (start : Time) (ht : s.channels[c].state ≠ .tripped) :
    s.Steady (s.enterStep c k start) := by
  unfold State.enterStep
  split
  · exact steady_refl s
  · next p hp =>
    split
    · exact steady_refl s
    · next st hst => exact steady_putTracking _ _ hp (List.getElem?_eq_some_iff.1 hst).1 ht

theorem steady_syncEdge (level : Level) (stamp : Time) (ht : s.channels[c].state ≠ .tripped) :
    s.Steady (s.syncEdge c level stamp) := by
  unfold State.syncEdge
  split
  · exact steady_refl s
  · split
    · exact steady_enterStep 0 stamp ht
    · exact steady_refl s

theorem steady_handleByEdge (dev : Deviation) (level : Level) (stamp : Time) (ht : s.channels[c].state ≠ .tripped) :
    s.Steady (s.handleByEdge c dev level stamp) := by
  have h := steady_handleDeviation dev ht
  unfold State.handleByEdge
  simp only
  split
  · next hk => exact steady_trans h (steady_syncEdge level stamp (by rw [hk]; nofun))
  · exact h

/-- A completed cycle keeps the counts lawful (R46, R47). -/
theorem configured_completeCycle {ch : Channel} {cfg : ChannelConfig} {p : Pattern} (h : ch.Configured cfg p)
    (hi : ch.state ≠ .idle) (ht : ch.state ≠ .tripped) : (ch.completeCycle cfg.forgive).Configured cfg p := by
  obtain ⟨hs, -, hg⟩ := h.counts
  rw [if_neg ht] at hs
  unfold Channel.completeCycle
  simp only
  split
  · exact ⟨h.range, countsLawful_active hi ht hs hg, h.table, h.step⟩
  · next hf =>
    rw [if_neg hf] at hg
    split
    · refine ⟨h.range, countsLawful_active hi ht ?_ ?_, h.table, h.step⟩
      · exact Nat.lt_of_le_of_lt (Nat.sub_le _ _) hs
      · rw [if_neg hf]; exact Nat.pos_of_ne_zero hf
    · refine ⟨h.range, countsLawful_active hi ht hs ?_, h.table, h.step⟩
      rw [if_neg hf]
      show ch.goodRun + 1 < cfg.forgive
      omega

@[simp] theorem config_completeCycle (ch : Channel) (forgive : Nat) : (ch.completeCycle forgive).config = ch.config := by
  unfold Channel.completeCycle
  simp only
  split
  · rfl
  · split <;> rfl

@[simp] theorem state_completeCycle (ch : Channel) (forgive : Nat) : (ch.completeCycle forgive).state = ch.state := by
  unfold Channel.completeCycle
  simp only
  split
  · rfl
  · split <;> rfl

/-- The end of a passed step: the next step, or the first one of a new cycle (R45, R46). -/
theorem steady_advance {cfg : ChannelConfig} (p : Pattern) (k : Nat) (stamp : Time) (hc : s.channels[c].config = some cfg)
    (hi : s.channels[c].state ≠ .idle) (ht : s.channels[c].state ≠ .tripped) :
    s.Steady
      (if k + 1 = p.steps.length then (s.putChannel c (s.channels[c].completeCycle cfg.forgive)).enterStep c 0 stamp
        else s.enterStep c (k + 1) stamp) := by
  split
  · refine steady_trans (steady_putChannel hc ?_ fun q _ h => configured_completeCycle h hi ht) (steady_enterStep 0 stamp ?_)
    · rw [config_completeCycle]; exact hc
    · rw [channels_get_putChannel_self, state_completeCycle]; exact ht
  · exact steady_enterStep (k + 1) stamp ht

theorem steady_passStep {cfg : ChannelConfig} (p : Pattern) (st : PatternStep) (k d : Nat) (stamp : Time)
    (hc : s.channels[c].config = some cfg) (hi : s.channels[c].state ≠ .idle) (ht : s.channels[c].state ≠ .tripped) :
    s.Steady (s.passStep c cfg p st k d stamp) := by
  unfold State.passStep
  by_cases hm : (st.mark && reportsMark cfg.report) = true
  · simp only [hm, if_true]
    exact steady_trans (steady_offer s _ _ _) (steady_advance p k stamp hc hi ht)
  · simp only [hm]
    exact steady_advance p k stamp hc hi ht

/-- An observed entry brought up to date leaves the rest of the record, and the table's size. -/
theorem configured_observe {ch : Channel} {cfg : ChannelConfig} {p : Pattern} (h : ch.Configured cfg p) (k d : Nat) :
    (ch.observe k d).Configured cfg p :=
  ⟨h.range, h.counts, by rw [← h.table]; exact List.length_modify .., h.step⟩

theorem steady_trackEdge {cfg : ChannelConfig} (k : Nat) (start : Time) (level : Level) (stamp : Time)
    (hc : s.channels[c].config = some cfg) (hi : s.channels[c].state ≠ .idle) (ht : s.channels[c].state ≠ .tripped) :
    s.Steady (s.trackEdge c cfg k start level stamp) := by
  unfold State.trackEdge
  split
  · exact steady_refl s
  · split
    · exact steady_refl s
    · have h1 : s.Steady (s.putChannel c (s.channels[c].observe k (elapsed stamp start))) :=
        steady_putChannel hc hc fun p _ h => configured_observe h k _
      have he := channels_get_putChannel_self s c (s.channels[c].observe k (elapsed stamp start))
      simp only
      split
      · exact steady_trans h1 (steady_handleByEdge _ level stamp (by rw [he]; exact ht))
      · split
        · exact steady_trans h1
            (steady_passStep _ _ k _ stamp (by rw [he]; exact hc) (by rw [he]; exact hi) (by rw [he]; exact ht))
        · exact steady_trans h1 (steady_handleByEdge _ level stamp (by rw [he]; exact ht))

theorem steady_closeByEdge (s : State) (c : Fin 8) (stamp : Time) : s.Steady (s.closeByEdge c stamp) := by
  unfold State.closeByEdge
  split
  · next hp =>
    split
    · split
      · obtain ⟨cfg, hc, -⟩ := patternOf_some hp
        refine steady_putChannel hc hc fun p _ h => ?_
        have ho := configured_observe h
        exact ⟨h.range, h.counts, (ho _ _).table, h.step⟩
      · exact steady_refl s
    · exact steady_refl s
  · exact steady_refl s

/-- What a channel makes of an edge keeps its law (R23, R33). -/
theorem steady_edgeTurn (s : State) (c : Fin 8) (level : Level) (stamp : Time) : s.Steady (s.edgeTurn c level stamp) := by
  have h := steady_closeByEdge s c stamp
  unfold State.edgeTurn
  simp only
  split
  · next hk => exact steady_trans h (steady_syncEdge level stamp (by rw [hk]; nofun))
  · next hc hk => exact steady_trans h (steady_trackEdge _ _ level stamp hc (by rw [hk]; nofun) (by rw [hk]; nofun))
  · exact h

theorem steady_lateByDeadline (k : Nat) (start : Time) (max : Nat) {cfg : ChannelConfig}
    (hc : s.channels[c].config = some cfg) (ht : s.channels[c].state ≠ .tripped) :
    s.Steady (s.lateByDeadline c k start max) := by
  unfold State.lateByDeadline
  have hput : s.Steady (s.putChannel c { s.channels[c] with closure := some { step := k, closing := after start max } }) :=
    steady_putChannel hc hc fun p _ h => ⟨h.range, h.counts, h.table, h.step⟩
  exact steady_trans hput (steady_handleDeviation _ (by rw [channels_get_putChannel_self]; exact ht))

theorem steady_deliverDeadline (s : State) (c : Fin 8) : s.Steady (s.deliverDeadline c) := by
  unfold State.deliverDeadline
  split
  · next hk hp =>
    obtain ⟨cfg, hc, -⟩ := patternOf_some hp
    split
    · split
      · exact steady_lateByDeadline _ _ _ hc (by rw [hk]; nofun)
      · exact steady_refl s
    · exact steady_refl s
  · exact steady_refl s

theorem steady_edgeToChannel (s : State) (c : Fin 8) (level : Level) (stamp : Time) :
    s.Steady (s.edgeToChannel c level stamp) :=
  steady_trans (steady_edgeTurn s c level stamp) (steady_deliverDeadline _ c)

theorem steady_moveDeadline (s : State) (c : Fin 8) : s.Steady (s.moveDeadline c) := by
  unfold State.moveDeadline
  split
  · next hk hp =>
    split
    · exact steady_refl s
    · next hst =>
      exact steady_trans (steady_putTracking _ _ hp (List.getElem?_eq_some_iff.1 hst).1 (by rw [hk]; nofun))
        (steady_deliverDeadline _ c)
  · exact steady_refl s

theorem steady_inSomeOrder (s : State) (cs : List (Fin 8)) {f : Fin 8 → State → State}
    (hf : ∀ (d : Fin 8) (u : State), u.Steady (f d u)) :
    s.Steady (s.inSomeOrder cs f) :=
  inSomeOrder_induct (s.Steady ·) s cs f (steady_refl s) (steady_of_eq rfl rfl) fun d _ u h => steady_trans h (hf d u)

theorem steady_deliverEdge (s : State) (l : Fin 8) (level : Level) (stamp : Time) : s.Steady (s.deliverEdge l level stamp) :=
  steady_inSomeOrder s _ fun d u => steady_edgeToChannel u d level stamp

theorem steady_handOnFilter (s : State) (l : Fin 8) : s.Steady (s.handOnFilter l) :=
  steady_inSomeOrder s _ fun d u => steady_moveDeadline u d

theorem steady_edgeThenFilter (s : State) (l : Fin 8) (level : Level) (stamp : Time) :
    s.Steady (s.edgeThenFilter l level stamp) := by
  unfold State.edgeThenFilter
  obtain ⟨ts, -, he⟩ := inTwoTurns_order s _ (nodup_channelsOf s l) fun d second u =>
    if second then u.moveDeadline d else u.edgeTurn d level stamp
  rw [he]
  refine steady_trans (t := { s with draws := if 2 < ts.length then s.draws + 1 else s.draws }) (steady_of_eq rfl rfl)
    (steady_foldl (fun x u => ?_) ts _)
  split
  · exact steady_moveDeadline u x.1
  · exact steady_edgeTurn u x.1 level stamp

theorem steady_acceptEdge (s : State) (l : Fin 8) (stamp : Time) : s.Steady (s.acceptEdge l stamp) :=
  steady_trans (steady_putLine s l _) (steady_deliverEdge _ l _ stamp)

/-- An accepted SET_LINE keeps the law of every channel: the edge and the new F reach them in turns (R25, R26). -/
theorem steady_setFilter (s : State) (l : Fin 8) (f : Nat) (clear : Bool) : s.Steady (s.setFilter l f clear).1 := by
  have hclear (u : State) (h : s.Steady u) :
      s.Steady (if clear then u.putLine l { u.lines[l] with runts := 0, edges := 0 } else u) := by
    split
    · exact steady_trans h (steady_putLine u l _)
    · exact h
  unfold State.setFilter
  simp only
  apply hclear
  split
  · split
    · exact steady_trans (steady_putLine s l _) (steady_trans (steady_putLine _ l _) (steady_edgeThenFilter _ l _ _))
    · exact steady_trans (steady_putLine s l _) (steady_handOnFilter _ l)
  · exact steady_trans (steady_putLine s l _) (steady_handOnFilter _ l)

end Sys2Proof.Machine

/-! Reset: a cleared state, and the laws that it meets. -/

namespace Sys2Proof.Machine

/-- The Step Pool's sum, slot by slot (R4). -/
theorem stepsIn_eq_sum (ps : Vector (Option Pattern) 16) : stepsIn ps = ∑ id : Fin 16, slotSteps ps[id] := by
  rw [stepsIn_eq, ← List.sum_ofFn]
  congr 1
  exact List.ext_getElem (by simp) fun i _ _ => by rw [List.getElem_ofFn]; simp

/-- The laws of the Pattern Table and of the channels together. -/
def State.TablesLawful (s : State) : Prop := s.PatternLaw ∧ s.ChannelLaw

theorem steady_tablesLawful {s t : State} (h : s.Steady t) (hl : s.TablesLawful) : t.TablesLawful := by
  obtain ⟨⟨hpat, hpool⟩, hch⟩ := hl
  refine ⟨⟨?_, ?_⟩, fun c => h.law c (hch c)⟩
  · rw [h.patterns]; exact hpat
  · unfold State.stepsInUse; rw [h.patterns]; exact hpool

variable {t : State} {pin : Fin 8 → Level}

theorem tablesLawful_of_cleared (h : t.Cleared pin) : t.TablesLawful := by
  obtain ⟨-, -, hpat, -, hch, -⟩ := h
  refine ⟨⟨fun id p hp => ?_, ?_⟩, fun c => ?_⟩
  · rw [hpat id] at hp; cases hp
  · have hsum : t.stepsInUse = 0 := by
      rw [State.stepsInUse, stepsIn_eq_sum]
      exact Finset.sum_eq_zero fun id _ => by rw [hpat id]; rfl
    omega
  · have hc := hch c
    exact (channelLawAt_unconfigured (by rw [hc])).2 (by rw [hc]; exact ⟨rfl, rfl, rfl, rfl⟩)

theorem idle_of_cleared (h : t.Cleared pin) (c : Fin 8) : t.channels[c].state = .idle := by
  obtain ⟨-, -, -, -, hch, -⟩ := h
  rw [hch c]

/-- A cleared state offers nothing for attention (R119, R120). -/
theorem attn_of_cleared (h : t.Cleared pin) : t.attn = false := by
  obtain ⟨-, -, -, -, -, -, -, -, hqueue, -⟩ := h
  unfold State.attn
  rw [hqueue]
  exact Bool.and_false _

/-- A cleared part outside RUNNING, whose store is lawful, meets every law of the device. -/
theorem lawful_of_cleared (h : t.Cleared pin) (hd : t.device ≠ .running) (hstore : t.StoreLaw) : t.Lawful := by
  have htables := tablesLawful_of_cleared h
  obtain ⟨htime, hplan, -, hlines, hch, hreact, hclaims, houts, hqueue, hop, hlink⟩ := h
  refine
    { patterns := htables.1, channels := htables.2, lines := fun l => ?lines
      claims := ⟨fun o cl hcl => ?backed, ?entries, fun o => ?nodup⟩, outputs := fun o => ?outputs
      admission := ?admission, sequence := ?sequence, pending := ?pending, quiet := fun _ => ?quiet
      reset := fun _ => ⟨hlink, htime, hplan⟩, link := ?linkLaw, store := hstore, deadlines := fun c => ?deadlines
      expiries := ⟨fun l => ?runs, fun o => ?frames, ?gap, ?silence⟩ }
  case lines => rw [hlines l]; exact ⟨(by decide : 20 ≤ 1023), nofun, fun h => absurd h hd, fun _ => ⟨rfl, rfl⟩, nofun⟩
  case backed => rw [hclaims o] at hcl; cases hcl
  case entries => intro i r hr; rw [hreact i] at hr; cases hr
  case nodup => rw [hclaims o]; exact List.nodup_nil
  case outputs =>
    unfold State.OutputLawAt State.effective
    rw [hclaims o, houts o]
    exact ⟨by decide, .inr rfl⟩
  case admission => rw [hqueue]; exact ⟨by decide, fun _ => Nat.zero_le 1, nofun, by decide⟩
  case sequence => rw [hqueue]; rfl
  case pending =>
    unfold State.PendingLaw
    rw [hqueue]
    exact ⟨fun _ _ _ => rfl, fun _ => rfl⟩
  case quiet =>
    refine ⟨fun c => ?_, fun o => ?_, fun _ => ⟨?_, fun o => ?_⟩, ?_⟩
    · rw [hch c]; exact ⟨rfl, rfl, rfl, rfl, rfl, rfl⟩
    · rw [hclaims o, houts o]; exact ⟨rfl, rfl, rfl⟩
    · rw [hlink]
    · rw [houts o]
    · rw [hqueue, hlink]; exact ⟨rfl, rfl, rfl, rfl, hop⟩
  case linkLaw =>
    unfold State.LinkLaw
    rw [hlink]
    exact ⟨by decide, by decide, by decide, nofun, trivial, .inl rfl, trivial⟩
  case deadlines => unfold State.DeadlineLawAt; rw [hch c]; trivial
  case runs => rw [hlines l]; trivial
  case frames => rw [houts o]; trivial
  case gap => rw [hlink]; trivial
  case silence => rw [hlink]; trivial

/-! The two states that are cleared -/

theorem cleared_beginReset (s : State) (cause : ResetCause) : (s.beginReset cause).Cleared fun l => s.lines[l].pin := by
  refine ⟨rfl, rfl, fun id => ?_, fun l => ?_, fun c => ?_, fun i => ?_, fun o => ?_, fun o => ?_, rfl, rfl, rfl⟩ <;>
    simp [State.beginReset, Line.atReset, Config.defaultFilter, Channel.atReset, DeviationCounts.zero, Generator.atReset]

theorem cleared_reset : State.reset.Cleared fun _ => .low := by
  refine ⟨rfl, rfl, fun id => ?_, fun l => ?_, fun c => ?_, fun i => ?_, fun o => ?_, fun o => ?_, rfl, rfl, rfl⟩ <;>
    simp [State.reset, Line.atReset, Config.defaultFilter, Channel.atReset, DeviationCounts.zero, Generator.atReset]

/-- Both banks are empty and invalid, and no operation is in flight. -/
theorem storeLaw_reset : State.reset.StoreLaw :=
  ⟨fun i => by cases i <;> exact ⟨nofun, fun ⟨_, hc, _⟩ => nomatch hc⟩, trivial⟩

/-- Settles O4: the state after reset is cleared, with the whole pool free. -/
theorem resetState : Obligations.ResetState := by
  have hfree : State.reset.freeSteps = 96 := by decide
  exact ⟨rfl, rfl, rfl, rfl, cleared_reset, hfree, rfl, rfl, attn_of_cleared cleared_reset, fun _ _ => rfl⟩

/-- Settles O5: the state after reset is cleared, in STARTING, with a lawful store. -/
theorem lawfulAtReset : Obligations.LawfulAtReset := lawful_of_cleared cleared_reset nofun storeLaw_reset

/-- A bank's validity at the end of a reset is what its check value says (R132). -/
theorem bank_decide_eq (b : Bank) : b.decide = { b with valid := (b.content.map (·.checkMatches)).getD false } := by
  unfold Bank.decide
  cases b.content <;> rfl

/-- Settles O6: a reset leaves a cleared state, and its end decides the banks. -/
theorem resetsBeginAndEnd : Obligations.ResetsBeginAndEnd := by
  refine ⟨fun s => ⟨⟨_, rfl, rfl, rfl, rfl, ?_, rfl, rfl, ?_, rfl, rfl⟩, ⟨_, rfl, rfl, rfl, rfl, ?_, rfl, rfl, ?_, rfl, rfl⟩⟩,
    fun s => ⟨fun hr => ?_, fun hr => ?_⟩⟩
  · exact cleared_beginReset s _
  · exact attn_of_cleared (cleared_beginReset s _)
  · exact cleared_beginReset _ _
  · exact attn_of_cleared (cleared_beginReset _ _)
  · exact congrArg Host.Outcome.next ((if_pos hr).trans (by simp only [State.endReset, bank_decide_eq]))
  · exact congrArg Host.Outcome.next (if_neg hr)

end Sys2Proof.Machine

/-! The load of a plan: an accepted image gives lawful patterns and lawful channels (R134, R135). -/

namespace Sys2Proof.Machine

variable {img : Image}

/-- What the load selects has passed the checks of R134, and the defaults pass them too. -/
theorem accepted_selectPlan (st : Store) : st.selectPlan.1.accepted = true := by
  have hdefaults : Image.defaults.accepted = true := by decide
  unfold Store.selectPlan
  split
  · exact hdefaults
  · split
    · exact hdefaults
    · split
      · next h => exact h
      · exact hdefaults

/-- The checks of R134 that the patterns and the channels rest on. -/
theorem accepted_tables (h : img.accepted = true) :
    (∀ p ∈ img.patterns, p.accepted = true) ∧ (img.patterns.map (·.steps.length)).sum ≤ 96 ∧
      ∀ (c : Fin 8) (ic : ImageConfig), img.channels[c] = some ic → ic.accepted (img.patterns.map (·.id)) = true := by
  simp only [Image.accepted, Bool.and_eq_true, List.all_eq_true, decide_eq_true_eq] at h
  obtain ⟨⟨⟨⟨⟨⟨⟨⟨hpat, -⟩, hpool⟩, hch⟩, -⟩, -⟩, -⟩, -⟩, -⟩ := h
  refine ⟨hpat, hpool, fun c ic hc => ?_⟩
  have hm := hch (img.channels[c]) (by simp)
  rw [hc] at hm
  exact hm

/-! Patterns -/

theorem lawful_toPattern {p : ImagePattern} (h : p.accepted = true) : p.toPattern.Lawful := by
  simp only [ImagePattern.accepted, Bool.and_eq_true, List.all_eq_true, decide_eq_true_eq] at h
  obtain ⟨⟨⟨⟨⟨-, -⟩, heven⟩, hmin⟩, hmax⟩, hsteps⟩ := h
  have hlen : p.toPattern.steps.length = p.steps.length := List.length_map ..
  refine ⟨by rw [hlen]; exact heven, by rw [hlen]; exact hmin, by rw [hlen]; exact hmax, fun st hst => ?_⟩
  obtain ⟨x, hx, rfl⟩ := List.mem_map.1 hst
  have hacc := hsteps x hx
  simp only [ImageStep.accepted, Bool.and_eq_true, decide_eq_true_eq] at hacc
  obtain ⟨⟨⟨-, hlt⟩, hle⟩, -⟩ := hacc
  exact ⟨hlt, hle⟩

theorem table_get (img : Image) (id : Fin 16) :
    img.table[id] = (img.patterns.find? fun p => p.id = id.val).map ImagePattern.toPattern :=
  Vector.getElem_ofFn id.isLt

/-- Each pattern of a list fills at most one slot, so the slots hold no more steps than the list. -/
theorem sum_slotSteps_find_le (ps : List ImagePattern) :
    ∑ id : Fin 16, slotSteps ((ps.find? fun p => p.id = id.val).map ImagePattern.toPattern) ≤
      (ps.map (·.steps.length)).sum := by
  induction ps with
  | nil => simp [slotSteps]
  | cons p ps ih =>
    have hslot (id : Fin 16) :
        slotSteps (((p :: ps).find? fun q => q.id = id.val).map ImagePattern.toPattern) ≤
          (if p.id = id.val then p.steps.length else 0) +
            slotSteps ((ps.find? fun q => q.id = id.val).map ImagePattern.toPattern) := by
      by_cases hid : p.id = id.val
      · simp [hid, slotSteps, ImagePattern.toPattern]
      · simp [hid]
    have hone : ∑ id : Fin 16, (if p.id = id.val then p.steps.length else 0) ≤ p.steps.length := by
      by_cases hlt : p.id < 16
      · rw [Finset.sum_eq_single ⟨p.id, hlt⟩ (fun id _ hne => if_neg fun e => hne (Fin.ext e.symm)) (by simp)]
        simp
      · rw [Finset.sum_eq_zero fun id _ => if_neg fun (e : p.id = id.val) => hlt (e ▸ id.isLt)]
        exact Nat.zero_le _
    calc _ ≤ ∑ id : Fin 16, _ := Finset.sum_le_sum fun id _ => hslot id
      _ ≤ p.steps.length + (ps.map (·.steps.length)).sum := by
        rw [Finset.sum_add_distrib]
        exact Nat.add_le_add hone ih
      _ = _ := by simp

theorem patterns_loadPlan (s : State) (img : Image) : (s.loadPlan img).patterns = img.table := rfl

theorem patternLaw_loadPlan (s : State) (h : img.accepted = true) : (s.loadPlan img).PatternLaw := by
  obtain ⟨hpat, hpool, -⟩ := accepted_tables h
  constructor
  · intro id p hp
    rw [patterns_loadPlan, table_get, Option.mem_def, Option.map_eq_some_iff] at hp
    obtain ⟨x, hx, rfl⟩ := hp
    exact lawful_toPattern (hpat x (List.mem_of_find?_eq_some hx))
  · rw [State.stepsInUse, patterns_loadPlan, stepsIn_eq_sum]
    simp only [table_get]
    exact Nat.le_trans (sum_slotSteps_find_le img.patterns) hpool

/-! Channels -/

/-- An accepted configuration is in the ranges of R30, and names a slot of the table that the image fills (R134). -/
theorem toConfig_accepted {ic : ImageConfig} {cfg : ChannelConfig} 
    (h : ic.accepted (img.patterns.map (·.id)) = true) (hc : ic.toConfig = some cfg) :
    cfg.InRange ∧ ∃ p, img.table[cfg.pattern] = some p := by
  simp only [ImageConfig.accepted, Bool.and_eq_true, decide_eq_true_eq] at h
  obtain ⟨⟨⟨⟨⟨⟨⟨-, hid⟩, hmin⟩, hmax⟩, hforgive⟩, hacquire⟩, -⟩, -⟩ := h
  unfold ImageConfig.toConfig at hc
  split at hc
  · simp only [Option.some.injEq] at hc
    subst hc
    refine ⟨⟨hmin, hmax, hforgive, fun a ha => ?_⟩, ?_⟩
    · simp only [Option.mem_def] at ha
      rw [ha] at hacquire
      simpa using hacquire
    · obtain ⟨x, hx, he⟩ := List.mem_map.1 (List.contains_iff_mem.1 hid)
      rw [table_get]
      cases hf : img.patterns.find? fun p => p.id = ic.pattern with
      | none => exact absurd (List.find?_eq_none.1 hf x hx) (by simp [he])
      | some y => exact ⟨y.toPattern, by simp⟩
  · cases hc

theorem channels_loadPlan (s : State) (img : Image) (c : Fin 8) :
    (s.loadPlan img).channels[c] = s.channels[c].load img.table (img.channels[c].bind ImageConfig.toConfig) :=
  Vector.getElem_ofFn c.isLt

/-- A channel in IDLE with nothing counted is lawful with the configuration of an accepted image (R54, R135). -/
theorem channelLaw_loadPlan (s : State) (h : img.accepted = true)
    (hidle : ∀ c : Fin 8, s.channels[c].state = .idle ∧ s.channels[c].strikes = 0 ∧ s.channels[c].goodRun = 0) :
    (s.loadPlan img).ChannelLaw := by
  intro c
  have hch := channels_loadPlan s img c
  obtain ⟨hstate, hstrikes, hgood⟩ := hidle c
  cases hcfg : img.channels[c].bind ImageConfig.toConfig with
  | none =>
    rw [hcfg] at hch
    exact (channelLawAt_unconfigured (by rw [hch]; rfl)).2 (by rw [hch]; exact ⟨hstate, hstrikes, hgood, rfl⟩)
  | some cfg =>
    obtain ⟨ic, hic, hto⟩ := Option.bind_eq_some_iff.1 hcfg
    obtain ⟨-, -, hchannels⟩ := accepted_tables h
    obtain ⟨hrange, p, hp⟩ := toConfig_accepted (hchannels c ic hic) hto
    rw [hcfg] at hch
    refine (channelLawAt_configured (by rw [hch]; rfl)).2 ⟨p, hp, ?_⟩
    rw [hch]
    refine ⟨hrange, countsLawful_cleared hrange ?_ hstrikes hgood, ?_, ?_⟩
    · show s.channels[c].state ≠ .tripped
      rw [hstate]; nofun
    · simp [Channel.load, hp, clearedTable]
    · show s.channels[c].state.StepBelow _
      rw [hstate]; trivial

theorem tablesLawful_loadPlan (s : State) (h : img.accepted = true)
    (hidle : ∀ c : Fin 8, s.channels[c].state = .idle ∧ s.channels[c].strikes = 0 ∧ s.channels[c].goodRun = 0) :
    (s.loadPlan img).TablesLawful :=
  ⟨patternLaw_loadPlan s h, channelLaw_loadPlan s h hidle⟩

/-! RUNNING entry -/

theorem turn_armChannel (s : State) (c : Fin 8) : s.TurnOf c (s.armChannel c) :=
  turn_trans (turn_putChannel s c _) (turn_seek _ c)

/-- A channel after ARM: every record cleared, the table sized to its pattern, in SEEKING (R36). -/
theorem channel_armChannel (s : State) (c : Fin 8) :
    (s.armChannel c).channels[c] =
      { s.channels[c] with
        state := .seeking ((s.channels[c].config.bind (·.acquire)).map (after s.time))
        strikes := 0, goodRun := 0, cycles := 0, counts := .zero, last := none
        observed := clearedTable (((s.patternOf c).map (·.steps.length)).getD 0), closure := none } := by
  unfold State.armChannel
  rw [channel_seek, channels_get_putChannel_self]
  cases s.patternOf c <;> rfl

theorem patternOf_eq {s : State} {c : Fin 8} {cfg : ChannelConfig} (hc : s.channels[c].config = some cfg) :
    s.patternOf c = s.patterns[cfg.pattern] := by
  unfold State.patternOf
  rw [hc]

theorem steady_armChannel {s : State} {c : Fin 8} {cfg : ChannelConfig} (hc : s.channels[c].config = some cfg) :
    s.Steady (s.armChannel c) := by
  have he := channel_armChannel s c
  refine steady_of_turn_configured (turn_armChannel s c) hc (by rw [he]; exact hc) fun p hp h => ?_
  rw [he]
  refine ⟨h.range, countsLawful_cleared h.range nofun rfl rfl, ?_, trivial⟩
  rw [patternOf_eq hc, hp]
  exact List.length_replicate

/-- The boot-armed channels are configured, so arming them keeps the tables (R54, R136). -/
theorem steady_bootArm (s : State) : s.Steady s.bootArm := by
  refine forChannels_induct (s.Steady ·) s _ (steady_refl s) fun c u h => steady_trans h ?_
  split
  · next hb =>
    cases hc : u.channels[c].config with
    | none => unfold State.bootArmed at hb; rw [hc] at hb; cases hb
    | some cfg => exact steady_armChannel hc
  · exact steady_refl u

theorem steady_enterRunning (s : State) (outcome : PlanOutcome) (generation : Option Count32) :
    s.Steady (s.enterRunning outcome generation) :=
  have hblocks : s.Steady s.enterBlocks := steady_of_eq rfl rfl
  steady_trans hblocks (steady_trans (steady_offer _ _ _ _) (steady_bootArm _))

end Sys2Proof.Machine

/-! The pattern requests' effects: who names a slot, what writing it leaves, and what DEFINE_PATTERN does to the tables. -/

namespace Sys2Proof.Machine

variable (s : State) (id : Fin 16) (c : Fin 8)

theorem isIdle_iff (x : ChannelState) : x.isIdle = true ↔ x = .idle := by cases x <;> simp [ChannelState.isIdle]

theorem namesPattern_iff : s.namesPattern id c = true ↔ ∃ cfg, s.channels[c].config = some cfg ∧ cfg.pattern = id := by
  unfold State.namesPattern
  cases s.channels[c].config <;> simp

theorem patternNamed_iff : s.patternNamed id = true ↔ ∃ c, s.namesPattern id c = true := by
  simp [State.patternNamed]

theorem patternFollowed_iff :
    s.patternFollowed id = true ↔ ∃ c : Fin 8, s.namesPattern id c = true ∧ s.channels[c].state ≠ .idle := by
  simp only [State.patternFollowed, List.any_eq_true, List.mem_finRange, true_and, Bool.and_eq_true, Bool.not_eq_true',
    ← Bool.not_eq_true, isIdle_iff]

/-! Writing one slot -/

/-- Any table whose other slots are lawful, and whose steps still fit the pool, is lawful. -/
theorem patternLaw_set {s t : State} {id : Fin 16} {x : Option Pattern} (h : s.PatternLaw)
    (ht : t.patterns = s.patterns.set id x) (hx : ∀ p ∈ x, p.Lawful) (hpool : t.stepsInUse ≤ 96) : t.PatternLaw := by
  refine ⟨fun j p hp => ?_, hpool⟩
  rw [ht] at hp
  by_cases hj : id = j
  · subst hj
    exact hx p (by simpa using hp)
  · have hv : id.val ≠ j.val := fun e => hj (Fin.ext e)
    exact h.1 j p (by simpa [hv] using hp)

/-- The steps in use after a slot is written: the slot's old count has gone, its new count has come. -/
theorem stepsInUse_set {s t : State} {id : Fin 16} {x : Option Pattern} (ht : t.patterns = s.patterns.set id x) :
    t.stepsInUse + slotSteps s.patterns[id] = s.stepsInUse + slotSteps x := by
  unfold State.stepsInUse
  rw [ht]
  exact stepsIn_set s.patterns id x

theorem slotSteps_eq (x : Option Pattern) : slotSteps x = (x.map (·.steps.length)).getD 0 := by cases x <;> rfl

theorem slotSteps_le : slotSteps s.patterns[id] ≤ s.stepsInUse := by
  have h := stepsInUse_set (s := s) (t := s.putPattern id none) (id := id) rfl
  simp only [slotSteps] at h ⊢
  omega

theorem stepsAvailable_eq : s.stepsAvailable id = 96 - s.stepsInUse + slotSteps s.patterns[id] := by
  unfold State.stepsAvailable State.freeSteps
  cases s.patterns[id] <;> rfl

/-! The pass of DEFINE_PATTERN over the channels -/

/-- In a pass over the channels in which each acts from its own record, a channel is left with what its own turn makes of it. -/
theorem channel_forChannels {f : Fin 8 → State → State} (hf : ∀ (d : Fin 8) (u : State), u.TurnOf d (f d u))
    (same : ∀ (d : Fin 8) (t u : State), t.AlikeFor d u → (f d t).AlikeFor d (f d u)) :
    (s.forChannels f).channels[c] = (f c s).channels[c] := by
  have hown : (List.finRange 8).filter (fun d => d = c) = [c] := by revert c; decide
  have h := foldl_own (fun d : Fin 8 => d) f hf same c (List.finRange 8) s s ⟨rfl, rfl, rfl, rfl⟩
  rw [hown] at h
  exact h.channel

theorem channel_clearTables (n : Nat) :
    (s.clearTables id n).channels[c] =
      if s.namesPattern id c then s.channels[c].clearObserved n else s.channels[c] := by
  refine (channel_forChannels s c (fun d u => ?_) fun d t u h => ?_).trans ?_
  · split
    · exact turn_putChannel u d _
    · exact turn_refl u d
  · have hn : t.namesPattern id d = u.namesPattern id d := by unfold State.namesPattern; rw [h.channel]
    rw [hn, h.channel]
    split
    · exact alike_putChannel h _
    · exact h
  · split
    · exact channels_get_putChannel_self s c _
    · rfl

/-- The pass changes nothing but the channels. -/
theorem clearTables_rest (n : Nat) : s.clearTables id n = { s with channels := (s.clearTables id n).channels } := by
  refine forChannels_induct (fun t => t = { s with channels := t.channels }) s _ rfl fun d t h => ?_
  split
  · exact congrArg (State.putChannel · d (t.channels[d].clearObserved n)) h
  · exact h

/-! The effect of DEFINE_PATTERN -/

variable (p : Pattern)

/-- A definition changes nothing but the patterns and the channels. -/
theorem definePattern_rest :
    s.definePattern id p =
      { s with patterns := s.patterns.set id (some p), channels := (s.definePattern id p).channels } := by
  unfold State.definePattern
  split
  · exact clearTables_rest (s.putPattern id (some p)) id p.steps.length
  · rfl

theorem patterns_definePattern : (s.definePattern id p).patterns = s.patterns.set id (some p) := by
  rw [definePattern_rest]

/-- A replacement clears the table of each channel that names the slot; a creation clears none (R12). -/
theorem channel_definePattern :
    (s.definePattern id p).channels[c] =
      if s.patterns[id] ≠ none ∧ s.namesPattern id c = true then s.channels[c].clearObserved p.steps.length
      else s.channels[c] := by
  unfold State.definePattern
  cases hp : s.patterns[id] with
  | none => simp
  | some q =>
    simp only [ne_eq, reduceCtorEq, not_false_eq_true, true_and]
    exact channel_clearTables (s.putPattern id (some p)) id c p.steps.length

end Sys2Proof.Machine

/-! What a step leaves of the patterns and the channels: the relation, the answers of the requests, and the events. -/

namespace Sys2Proof.Machine

/-! The relation -/

/-- `t` has lawful tables, and each channel outside IDLE in both states has kept its configuration and its pattern (R5, R30). -/
structure State.TablesKept (s t : State) : Prop where
  lawful : t.TablesLawful
  followed : ∀ c : Fin 8, s.channels[c].state ≠ .idle → t.channels[c].state ≠ .idle →
    t.channels[c].config = s.channels[c].config ∧
      ∀ cfg : ChannelConfig, s.channels[c].config = some cfg → t.patterns[cfg.pattern] = s.patterns[cfg.pattern]

variable {s t u : State} {c : Fin 8}

theorem kept_of_steady (hl : s.TablesLawful) (h : s.Steady t) : s.TablesKept t :=
  ⟨steady_tablesLawful h hl, fun c _ _ => ⟨h.config c, fun cfg _ => by rw [h.patterns]⟩⟩

theorem kept_of_eq (hl : s.TablesLawful) (hp : t.patterns = s.patterns) (hc : t.channels = s.channels) : s.TablesKept t :=
  kept_of_steady hl (steady_of_eq hp hc)

theorem kept_refl (hl : s.TablesLawful) : s.TablesKept s := kept_of_eq hl rfl rfl

/-- No channel is followed before the step. -/
theorem kept_of_idle (hi : ∀ c : Fin 8, s.channels[c].state = .idle) (hl : t.TablesLawful) : s.TablesKept t :=
  ⟨hl, fun c hs _ => absurd (hi c) hs⟩

/-- A reset begins (R16, R54). -/
theorem kept_of_cleared {pin : Fin 8 → Level} (h : t.Cleared pin) : s.TablesKept t :=
  ⟨tablesLawful_of_cleared h, fun c _ ht => absurd (idle_of_cleared h c) ht⟩

/-- The relation reads only the patterns and the channels. -/
theorem kept_congr {s' t' : State} (h : s.TablesKept t) (hs : s'.patterns = s.patterns) (hsc : s'.channels = s.channels)
    (ht : t'.patterns = t.patterns) (htc : t'.channels = t.channels) : s'.TablesKept t' :=
  ⟨steady_tablesLawful (steady_of_eq ht htc) h.lawful, fun c => by rw [hs, hsc, ht, htc]; exact h.followed c⟩

theorem tablesLawful_congr (hl : s.TablesLawful) (hp : t.patterns = s.patterns) (hc : t.channels = s.channels) :
    t.TablesLawful := steady_tablesLawful (steady_of_eq hp hc) hl

/-! Answers -/

/-- The effect of an answer keeps the tables; a refusal has no effect. -/
def Answer.TablesKept (s : State) : Answer → Prop
  | .refuse _ => True
  | .ok _ t => s.TablesKept t
  | .okThenReset t => s.TablesKept t

theorem kept_answer (hl : s.TablesLawful) (tag : Byte) {a : Answer} (h : a.TablesKept s) : s.TablesKept (s.answer tag a) := by
  cases a with
  | refuse status => exact kept_of_eq hl rfl rfl
  | ok data t => exact kept_congr h rfl rfl rfl rfl
  | okThenReset t => exact kept_congr h rfl rfl rfl rfl

/-- A request keeps the tables when what the executor carries out keeps them. -/
theorem kept_request (hl : s.TablesLawful) (f : Frame) {carryOut : State → Answer}
    (h : ∀ u : State, u.TablesLawful → (carryOut u).TablesKept u) : s.TablesKept (s.request f carryOut) := by
  obtain ⟨-, he⟩ | ⟨-, l, -, he | ⟨rest, -, -, he⟩⟩ := request_cases s f carryOut
  · rw [he]; exact kept_refl hl
  · rw [he]; exact kept_of_eq hl rfl rfl
  · have htaken : ({ s with link := { l with inbox := rest } } : State).TablesLawful := tablesLawful_congr hl rfl rfl
    rw [he]
    exact kept_congr (kept_answer htaken f.tag (h _ htaken)) rfl rfl rfl rfl

theorem kept_whenRunning {a : Answer} (h : a.TablesKept s) : (whenRunning s a).TablesKept s := by
  unfold whenRunning
  split
  · exact h
  · trivial

theorem kept_noParams (params : List Byte) {a : Answer} (h : a.TablesKept s) : (noParams params a).TablesKept s := by
  unfold noParams
  split
  · exact h
  · trivial

theorem kept_oneParam {α : Type} (params : List Byte) {parse : Byte → Option α} {k : α → Answer}
    (h : ∀ x, (k x).TablesKept s) : (oneParam params s parse k).TablesKept s := by
  unfold oneParam
  split
  · split
    · exact kept_whenRunning (h _)
    · trivial
  · trivial

/-! Requests of the channels -/

/-- A lawful channel in IDLE has nothing counted, configured or not (R33). -/
theorem counts_of_idle (h : s.ChannelLawAt c) (hi : s.channels[c].state = .idle) :
    s.channels[c].strikes = 0 ∧ s.channels[c].goodRun = 0 := by
  cases hc : s.channels[c].config with
  | none =>
    obtain ⟨-, hs, hg, -⟩ := (channelLawAt_unconfigured hc).1 h
    exact ⟨hs, hg⟩
  | some cfg =>
    obtain ⟨p, -, hch⟩ := (channelLawAt_configured hc).1 h
    obtain ⟨-, hidle, -⟩ := hch.counts
    exact hidle hi

/-- A new record for a channel in IDLE, which may bring another configuration (R34, R35). -/
theorem kept_putChannel_idle {x : Channel} (hl : s.TablesLawful) (hi : s.channels[c].state = .idle)
    (hx : (s.putChannel c x).ChannelLawAt c) : s.TablesKept (s.putChannel c x) := by
  have hothers (d : Fin 8) (hd : c ≠ d) := channels_get_putChannel_ne s c d x hd
  refine ⟨⟨hl.1, fun d => ?_⟩, fun d hs _ => ?_⟩
  · by_cases hd : c = d
    · subst hd; exact hx
    · exact channelLawAt_of_eq (hl.2 d) (patterns_putChannel s c x) (hothers d hd)
  · have hd : c ≠ d := fun e => hs (e ▸ hi)
    exact ⟨by rw [hothers d hd], fun _ _ => rfl⟩

theorem configOf_inRange {line pat limit forgive pres a b d mask boot : Byte} {cfg : ChannelConfig}
    (h : configOf line pat limit forgive pres a b d mask boot = some cfg) : cfg.InRange := by
  unfold configOf at h
  split at h
  · next l p acq m bo hline hpat hacq hmask hboot =>
    split at h
    · next hlimit =>
      simp only [Option.some.injEq] at h
      subst h
      refine ⟨hlimit.1, hlimit.2, Nat.le_of_lt_succ forgive.isLt, fun n hn => ?_⟩
      simp only [Option.mem_def] at hn
      subst hn
      unfold acquireOf at hacq
      have ha : a.toNat < 256 := a.isLt
      have hb : b.toNat < 256 := b.isLt
      have hd : d.toNat < 256 := d.isLt
      split at hacq
      · simp at hacq
      · split at hacq
        · split at hacq
          · next hpos =>
            simp only [Option.some.injEq] at hacq
            subst hacq
            exact ⟨hpos, by unfold nat24; omega⟩
          · cases hacq
        · cases hacq
    · cases h
  · cases h

theorem kept_configureChannelAnswer (params : List Byte) (hl : s.TablesLawful) :
    (configureChannelAnswer params s).TablesKept s := by
  unfold configureChannelAnswer
  split
  · split
    · next c cfg _ hcfg =>
      refine kept_whenRunning ?_
      split
      · trivial
      · next hidle =>
        have hi : s.channels[c].state = .idle := by simpa [isIdle_iff] using hidle
        split
        · trivial
        · next p hp =>
          obtain ⟨hstrikes, hgood⟩ := counts_of_idle (hl.2 c) hi
          have hrange := configOf_inRange hcfg
          have he := channels_get_putChannel_self s c ({ s.channels[c] with config := some cfg }.clearObserved p.steps.length)
          refine kept_putChannel_idle hl hi ((channelLawAt_configured (by rw [he]; rfl)).2 ⟨p, hp, ?_⟩)
          rw [he]
          refine ⟨hrange, countsLawful_cleared hrange ?_ hstrikes hgood, List.length_replicate, ?_⟩
          · show s.channels[c].state ≠ .tripped
            rw [hi]; nofun
          · show s.channels[c].state.StepBelow _
            rw [hi]; trivial
    · trivial
  · trivial

theorem kept_clearChannelAnswer (params : List Byte) (hl : s.TablesLawful) : (clearChannelAnswer params s).TablesKept s := by
  refine kept_oneParam params fun c => ?_
  split
  · trivial
  · next hidle =>
    have hi : s.channels[c].state = .idle := by simpa [isIdle_iff] using hidle
    split
    · trivial
    · obtain ⟨hstrikes, hgood⟩ := counts_of_idle (hl.2 c) hi
      have he := channels_get_putChannel_self s c s.channels[c].clear
      exact kept_putChannel_idle hl hi
        ((channelLawAt_unconfigured (by rw [he]; rfl)).2 (by rw [he]; exact ⟨hi, hstrikes, hgood, rfl⟩))

theorem kept_armAnswer (params : List Byte) (hl : s.TablesLawful) : (armAnswer params s).TablesKept s := by
  refine kept_oneParam params fun c => ?_
  split
  · trivial
  · split
    · trivial
    · next hc =>
      split
      · trivial
      · exact kept_of_steady hl (steady_armChannel hc)

theorem not_idle_or_tripped_of_supervising {x : ChannelState} (h : x.supervising = true) : x ≠ .idle ∧ x ≠ .tripped := by
  cases x <;> simp [ChannelState.supervising] at h <;> exact ⟨nofun, nofun⟩

theorem kept_pauseAnswer (params : List Byte) (hl : s.TablesLawful) : (pauseAnswer params s).TablesKept s := by
  refine kept_oneParam params fun c => ?_
  split
  · next hsup =>
    obtain ⟨hi, ht⟩ := not_idle_or_tripped_of_supervising hsup
    have he := channels_get_putChannel_self s c { s.channels[c] with state := .paused }
    refine kept_of_steady hl (steady_of_turn_active (turn_putChannel s c _) hi (by rw [he]) fun cfg p _ _ h => ?_)
    obtain ⟨hs, -, hg⟩ := h.counts
    rw [if_neg ht] at hs
    rw [he]
    exact ⟨h.range, countsLawful_active nofun nofun hs hg, h.table, trivial⟩
  · trivial

theorem kept_resumeAnswer (params : List Byte) (hl : s.TablesLawful) : (resumeAnswer params s).TablesKept s := by
  refine kept_oneParam params fun c => ?_
  split
  · next hp => exact kept_of_steady hl (steady_seek (by rw [hp]; nofun) (by rw [hp]; nofun))
  · trivial

theorem turn_releaseClaims (s : State) (c : Fin 8) (src : Source) : s.TurnOf c (s.releaseClaims src) :=
  ⟨rfl, rfl, rfl, rfl, rfl, rfl, rfl, fun _ _ => rfl, rfl, rfl, rfl, rfl, rfl⟩

/-- A turn that leaves its channel, which was outside IDLE, in a state without a step and with nothing counted (R40, R72). -/
theorem steady_of_cleared_counts {x : ChannelState} (h : s.TurnOf c t) (hi : s.channels[c].state ≠ .idle)
    (hx : x = .idle ∨ ∃ expiry, x = .seeking expiry)
    (he : t.channels[c] = { s.channels[c] with state := x, strikes := 0, goodRun := 0 }) : s.Steady t := by
  refine steady_of_turn_active h hi (by rw [he]) fun cfg p _ _ hch => ?_
  rw [he]
  obtain rfl | ⟨expiry, rfl⟩ := hx
  · exact ⟨hch.range, countsLawful_cleared hch.range nofun rfl rfl, hch.table, trivial⟩
  · exact ⟨hch.range, countsLawful_cleared hch.range nofun rfl rfl, hch.table, trivial⟩

theorem steady_disarm (s : State) (c : Fin 8) : s.Steady (s.disarm c) := by
  unfold State.disarm
  split
  · exact steady_refl s
  · next hidle =>
    have hi : s.channels[c].state ≠ .idle := fun h => hidle ((isIdle_iff _).2 h)
    have hput := turn_putChannel s c { s.channels[c] with state := .idle, strikes := 0, goodRun := 0 }
    have he := channels_get_putChannel_self s c { s.channels[c] with state := .idle, strikes := 0, goodRun := 0 }
    simp only
    split
    · exact steady_of_cleared_counts (turn_trans hput (turn_releaseClaims _ c _)) hi (.inl rfl) he
    · exact steady_of_cleared_counts hput hi (.inl rfl) he

theorem steady_rearmChannel (ht : s.channels[c].state = .tripped) : s.Steady (s.rearmChannel c) := by
  have hturn : s.TurnOf c (s.rearmChannel c) :=
    turn_trans (turn_putChannel s c _) (turn_trans (turn_releaseClaims _ c _) (turn_seek _ c))
  have he : (s.rearmChannel c).channels[c] =
      { s.channels[c] with
        state := .seeking ((s.channels[c].config.bind (·.acquire)).map (after s.time)), strikes := 0, goodRun := 0 } := by
    unfold State.rearmChannel
    rw [channel_seek, channels_releaseClaims, channels_get_putChannel_self]
    rfl
  exact steady_of_cleared_counts hturn (by rw [ht]; nofun) (.inr ⟨_, rfl⟩) he

theorem kept_rearmAnswer (params : List Byte) (hl : s.TablesLawful) : (rearmAnswer params s).TablesKept s := by
  refine kept_oneParam params fun src => ?_
  split
  · trivial
  · next htrip =>
    split
    · trivial
    · cases src with
      | channel c => exact kept_of_steady hl (steady_rearmChannel (by simpa [State.sourceTripped] using htrip))
      | link => exact kept_of_eq hl rfl rfl

theorem kept_injectAnswer (params : List Byte) (hl : s.TablesLawful) : (injectAnswer params s).TablesKept s := by
  refine kept_oneParam params fun c => ?_
  split
  · next hsup => exact kept_of_steady hl (steady_handleDeviation _ (not_idle_or_tripped_of_supervising hsup).2)
  · trivial

theorem kept_clearObservedAnswer (params : List Byte) (hl : s.TablesLawful) :
    (clearObservedAnswer params s).TablesKept s := by
  refine kept_oneParam params fun c => ?_
  split
  · trivial
  · next cfg hc =>
    refine kept_of_steady hl (steady_putChannel hc hc fun p hp h => ⟨h.range, h.counts, ?_, h.step⟩)
    rw [patternOf_eq hc, hp]
    exact List.length_replicate

/-! Requests of the patterns -/

/-- What the record parser accepts: seven bytes a step, each step in the ranges of R3 (R7, R171). -/
theorem stepsOf_some {bytes : List Byte} {steps : List PatternStep} (h : stepsOf bytes = some steps) :
    bytes.length = 7 * steps.length ∧ ∀ st ∈ steps, st.min < st.max ∧ st.max ≤ 16777215 := by
  induction bytes using stepsOf.induct generalizing steps with
  | case1 =>
    simp only [stepsOf, Option.some.injEq] at h
    subst h
    exact ⟨rfl, nofun⟩
  | case2 a b c d e f m rest mark steps' hrest hmark hrange ih =>
    obtain ⟨hlen, hsteps⟩ := ih hrest
    simp only [stepsOf, hmark, hrest, if_pos hrange, Option.some.injEq] at h
    subst h
    refine ⟨by simp only [List.length_cons, hlen]; omega, fun st hst => ?_⟩
    obtain rfl | hst := List.mem_cons.1 hst
    · exact hrange.2
    · exact hsteps st hst
  | case3 a b c d e f m rest mark steps' hrest hmark hrange _ => simp [stepsOf, hmark, hrest, hrange] at h
  | case4 a b c d e f m rest hno _ =>
    unfold stepsOf at h
    split at h
    · next mark steps' hmark hrest => exact (hno mark steps' hmark hrest).elim
    · cases h
  | case5 bytes hnil hcons => rw [stepsOf.eq_3 bytes hnil hcons] at h; cases h

/-- A definition that fits the pool, of a pattern that no channel outside IDLE names (R8 to R12). -/
theorem kept_definePattern {id : Fin 16} {p : Pattern} (hl : s.TablesLawful) (hf : s.patternFollowed id = false)
    (hp : p.Lawful) (hfit : p.steps.length ≤ s.stepsAvailable id) : s.TablesKept (s.definePattern id p) := by
  obtain ⟨hpat, hch⟩ := hl
  have hset := patterns_definePattern s id p
  have hidle (c : Fin 8) (hn : s.namesPattern id c = true) : s.channels[c].state = .idle := by
    by_contra hi
    rw [(patternFollowed_iff s id).2 ⟨c, hn, hi⟩] at hf
    cases hf
  have hother (c : Fin 8) (hn : s.namesPattern id c ≠ true) :
      (s.definePattern id p).channels[c] = s.channels[c] ∧
        ∀ cfg, s.channels[c].config = some cfg → (s.definePattern id p).patterns[cfg.pattern] = s.patterns[cfg.pattern] := by
    refine ⟨by rw [channel_definePattern, if_neg fun h => hn h.2], fun cfg hcfg => ?_⟩
    rw [hset]
    exact patterns_get_putPattern_ne s id cfg.pattern (some p) fun e => hn ((namesPattern_iff s id c).2 ⟨cfg, hcfg, e.symm⟩)
  have hpool : (s.definePattern id p).stepsInUse ≤ 96 := by
    have hsum := stepsInUse_set hset
    have hold := slotSteps_le s id
    have hmax := hpat.2
    rw [stepsAvailable_eq] at hfit
    simp only [slotSteps] at hsum hold hfit
    omega
  refine ⟨⟨patternLaw_set hpat hset (by rintro q ⟨⟩; exact hp) hpool, fun c => ?_⟩, fun c hi _ => ?_⟩
  · by_cases hn : s.namesPattern id c = true
    · obtain ⟨cfg, hcfg, rfl⟩ := (namesPattern_iff s id c).1 hn
      obtain ⟨q, hq, hconf⟩ := (channelLawAt_configured hcfg).1 (hch c)
      have he := channel_definePattern s cfg.pattern c p
      rw [if_pos ⟨by rw [hq]; nofun, hn⟩] at he
      refine (channelLawAt_configured (by rw [he]; exact hcfg)).2 ⟨p, by rw [hset]; simp, ?_⟩
      rw [he]
      refine ⟨hconf.range, hconf.counts, List.length_replicate, ?_⟩
      show s.channels[c].state.StepBelow _
      rw [hidle c hn]
      trivial
    · obtain ⟨he, hnamed⟩ := hother c hn
      exact channelLawAt_of_named (hch c) he hnamed
  · obtain ⟨he, hnamed⟩ := hother c fun hn => hi (hidle c hn)
    exact ⟨by rw [he], hnamed⟩

theorem kept_definePatternAnswer (params : List Byte) (hl : s.TablesLawful) :
    (definePatternAnswer params s).TablesKept s := by
  unfold definePatternAnswer
  split
  · next id level n records =>
    split
    · trivial
    · next hrecords =>
      split
      · next i startLevel steps _ _ hsteps =>
        split
        · next hcount =>
          obtain ⟨hbytes, hranges⟩ := stepsOf_some hsteps
          have hlen : steps.length = n.toNat := by omega
          refine kept_whenRunning ?_
          split
          · trivial
          · next hf =>
            split
            · trivial
            · next hfit =>
              have hp : Pattern.Lawful { startLevel, steps } := by
                unfold Pattern.Lawful
                rw [hlen]
                exact ⟨hcount.1, hcount.2.1, hcount.2.2, hranges⟩
              exact kept_definePattern hl (by simpa using hf) hp (by rw [hlen]; omega)
        · trivial
      · trivial
  · trivial

/-- A slot that no configuration names may be emptied (R14). -/
theorem kept_deletePattern {id : Fin 16} (hl : s.TablesLawful) (hn : s.patternNamed id = false) :
    s.TablesKept (s.putPattern id none) := by
  obtain ⟨hpat, hch⟩ := hl
  have hnamed (c : Fin 8) (cfg : ChannelConfig) (hcfg : s.channels[c].config = some cfg) :
      (s.putPattern id none).patterns[cfg.pattern] = s.patterns[cfg.pattern] := by
    refine patterns_get_putPattern_ne s id cfg.pattern none fun e => ?_
    rw [(patternNamed_iff s id).2 ⟨c, (namesPattern_iff s id c).2 ⟨cfg, hcfg, e.symm⟩⟩] at hn
    cases hn
  have hpool : (s.putPattern id none).stepsInUse ≤ 96 := by
    have hsum := stepsInUse_set (s := s) (t := s.putPattern id none) (id := id) (x := none) rfl
    have hmax := hpat.2
    simp only [slotSteps] at hsum
    omega
  exact ⟨⟨patternLaw_set hpat (patterns_putPattern s id none) nofun hpool,
    fun c => channelLawAt_of_named (hch c) (by rw [channels_putPattern]) (hnamed c)⟩, fun c _ _ => ⟨rfl, hnamed c⟩⟩

theorem kept_deletePatternAnswer (params : List Byte) (hl : s.TablesLawful) :
    (deletePatternAnswer params s).TablesKept s := by
  refine kept_oneParam params fun id => ?_
  split
  · trivial
  · split
    · trivial
    · next hn => exact kept_deletePattern hl (by simpa using hn)

end Sys2Proof.Machine

/-! Every command, and so every step, keeps the tables. -/

namespace Sys2Proof.Machine

variable {s t : State}

/-! Requests that leave the tables, and SET_LINE -/

theorem kept_setAttentionAnswer (params : List Byte) (hl : s.TablesLawful) :
    (setAttentionAnswer params s).TablesKept s := kept_oneParam params fun _ => kept_of_eq hl rfl rfl

theorem kept_fetchAnswer (params : List Byte) (hl : s.TablesLawful) : (fetchAnswer params s).TablesKept s :=
  kept_oneParam params fun _ => kept_of_eq hl rfl rfl

theorem kept_setLineAnswer (params : List Byte) (hl : s.TablesLawful) : (setLineAnswer params s).TablesKept s := by
  unfold setLineAnswer
  split
  · split
    · split
      · exact kept_whenRunning (kept_of_steady hl (steady_setFilter s _ _ _))
      · trivial
    · trivial
  · trivial

theorem kept_setLinkAnswer (params : List Byte) (hl : s.TablesLawful) : (setLinkAnswer params s).TablesKept s := by
  unfold setLinkAnswer
  split
  · split
    · exact kept_whenRunning (kept_of_eq hl rfl rfl)
    · trivial
  · trivial

theorem kept_savePlanAnswer (params : List Byte) (hl : s.TablesLawful) : (savePlanAnswer params s).TablesKept s := by
  refine kept_noParams params (kept_whenRunning ?_)
  split
  · trivial
  · split
    · trivial
    · exact kept_of_eq hl rfl rfl

theorem kept_erasePlanAnswer (params : List Byte) (hl : s.TablesLawful) : (erasePlanAnswer params s).TablesKept s := by
  refine kept_noParams params (kept_whenRunning ?_)
  split
  · trivial
  · exact kept_of_eq hl rfl rfl

theorem kept_setReactionAnswer (params : List Byte) (hl : s.TablesLawful) : (setReactionAnswer params s).TablesKept s := by
  unfold setReactionAnswer
  split
  · split
    · refine kept_whenRunning ?_
      split
      · trivial
      · split
        · trivial
        · exact kept_of_eq hl rfl rfl
    · trivial
  · trivial

theorem kept_setOutputAnswer (params : List Byte) (hl : s.TablesLawful) : (setOutputAnswer params s).TablesKept s := by
  unfold setOutputAnswer
  split
  · split
    · exact kept_whenRunning (kept_of_eq hl rfl rfl)
    · trivial
  · trivial

theorem kept_readPatternAnswer (params : List Byte) (hl : s.TablesLawful) : (readPatternAnswer params s).TablesKept s := by
  refine kept_oneParam params fun id => ?_
  split
  · trivial
  · exact kept_refl hl

theorem kept_readObservedAnswer (params : List Byte) (hl : s.TablesLawful) :
    (readObservedAnswer params s).TablesKept s := by
  refine kept_oneParam params fun c => ?_
  split
  · trivial
  · exact kept_refl hl

/-! Events -/

theorem steady_rawChange {l : Fin 8} {level : Level} (h : execRawChange l level s = .next t) : s.Steady t := by
  obtain rfl := Host.Outcome.next.inj h
  simp only
  split
  · split
    · exact steady_putLine s l _
    · split
      · exact steady_putLine s l _
      · split
        · exact steady_trans (steady_putLine s l _) (steady_acceptEdge _ l _)
        · exact steady_putLine s l _
  · exact steady_putLine s l _

theorem steady_qualificationExpiry {l : Fin 8} (h : execQualificationExpiry l s = .next t) : s.Steady t := by
  obtain rfl := Host.Outcome.next.inj h
  split
  · split
    · exact steady_acceptEdge s l _
    · exact steady_refl s
  · exact steady_refl s

theorem steady_acquireExpiry {c : Fin 8} (h : execAcquireExpiry c s = .next t) : s.Steady t := by
  obtain rfl := Host.Outcome.next.inj h
  split
  · next hk =>
    split
    · exact steady_handleDeviation _ (by rw [hk]; nofun)
    · exact steady_refl s
  · exact steady_refl s

theorem steady_frameEndExpiry {o : Fin 6} (h : execFrameEndExpiry o s = .next t) : s.Steady t := by
  obtain rfl := Host.Outcome.next.inj h
  split
  · split
    · exact steady_of_eq rfl rfl
    · exact steady_refl s
  · exact steady_refl s

theorem steady_saveCompletion {matched : Bool} (h : execSaveCompletion matched s = .next t) : s.Steady t := by
  obtain rfl := Host.Outcome.next.inj h
  split
  · split
    · exact steady_refl s
    · exact steady_of_eq rfl rfl
  · exact steady_refl s

theorem steady_secondBankInvalidation (h : execSecondBankInvalidation s = .next t) : s.Steady t := by
  obtain rfl := Host.Outcome.next.inj h
  split
  · split
    · exact steady_refl s
    · exact steady_of_eq rfl rfl
  · exact steady_refl s

theorem steady_eraseCompletion (h : execEraseCompletion s = .next t) : s.Steady t := by
  obtain rfl := Host.Outcome.next.inj h
  split
  · split
    · exact steady_refl s
    · exact steady_of_eq rfl rfl
  · exact steady_refl s

theorem steady_resetEnd (h : execResetEnd s = .next t) : s.Steady t := by
  obtain rfl := Host.Outcome.next.inj h
  split
  · exact steady_of_eq rfl rfl
  · exact steady_refl s

theorem steady_byteArrival {b : Byte} (h : execByteArrival b s = .next t) : s.Steady t := by
  obtain rfl := Host.Outcome.next.inj h
  split
  · exact steady_refl s
  · exact steady_of_eq rfl rfl

theorem steady_framingFault (h : execFramingFault s = .next t) : s.Steady t := by
  obtain rfl := Host.Outcome.next.inj h
  split
  · exact steady_refl s
  · split
    · exact steady_refl s
    · exact steady_of_eq rfl rfl

theorem steady_gapExpiry (h : execGapExpiry s = .next t) : s.Steady t := by
  obtain rfl := Host.Outcome.next.inj h
  split
  · split
    · exact steady_of_eq rfl rfl
    · exact steady_refl s
  · exact steady_refl s

theorem steady_silenceExpiry (h : execSilenceExpiry s = .next t) : s.Steady t := by
  obtain rfl := Host.Outcome.next.inj h
  split
  · split
    · exact steady_of_eq rfl rfl
    · exact steady_refl s
  · exact steady_refl s

/-- The end of an accepted RESET's reply begins and ends a reset; any other reply leaves the tables (R131, R144). -/
theorem kept_replySent (hl : s.TablesLawful) (h : execReplySent s = .next t) : s.TablesKept t := by
  obtain rfl := Host.Outcome.next.inj h
  split
  · split
    · split
      · exact kept_congr (kept_of_cleared (s := s) (cleared_beginReset s .resetRequest)) rfl rfl rfl rfl
      · exact kept_of_eq hl rfl rfl
    · exact kept_refl hl
  · exact kept_refl hl

/-- In STARTING every channel is in IDLE with nothing counted, so a plan may be written (R54, R135). -/
theorem tablesLawful_writePlan (hl : s.Lawful) (hd : s.device = .starting) :
    (∀ c : Fin 8, s.channels[c].state = .idle) ∧ (s.loadPlan s.store.selectPlan.1).TablesLawful := by
  obtain ⟨hquiet, -⟩ := hl.quiet (by rw [hd]; nofun)
  refine ⟨fun c => (hquiet c).1, tablesLawful_loadPlan s (accepted_selectPlan s.store) fun c => ?_⟩
  obtain ⟨hstate, hstrikes, hgood, -⟩ := hquiet c
  exact ⟨hstate, hstrikes, hgood⟩

theorem kept_planLoadEnd (hl : s.Lawful) (h : execPlanLoadEnd s = .next t) : s.TablesKept t := by
  obtain rfl := Host.Outcome.next.inj h
  split
  · next hd =>
    obtain ⟨hidle, hload⟩ := tablesLawful_writePlan hl hd
    exact kept_of_idle hidle (steady_tablesLawful (steady_enterRunning _ _ _) hload)
  · exact kept_refl ⟨hl.patterns, hl.channels⟩

/-! Time -/

theorem patterns_tick (s : State) : s.tick.patterns = s.patterns := by
  unfold State.tick
  split <;> rfl

/-- Outside RESET a microsecond ends the deadline closure of a channel, and leaves the rest of its record (R66). -/
theorem channel_tick (hd : s.device ≠ .reset) (c : Fin 8) :
    s.tick.channels[c] = { s.channels[c] with closure := none } := by
  unfold State.tick
  rw [if_neg hd]
  exact Vector.getElem_ofFn c.isLt

theorem steady_tick (s : State) : s.Steady s.tick := by
  by_cases hd : s.device = .reset
  · rw [show s.tick = s from if_pos hd]
    exact steady_refl s
  · refine ⟨patterns_tick s, fun c => by rw [channel_tick hd], fun c h => ?_⟩
    unfold State.ChannelLawAt at h ⊢
    rw [patterns_tick, channel_tick hd]
    exact h

theorem kept_pass (hl : s.Lawful) : s.TablesKept s.pass := by
  have htables : s.TablesLawful := ⟨hl.patterns, hl.channels⟩
  unfold State.pass
  split
  · next hd =>
    split
    · obtain ⟨hidle, hload⟩ := tablesLawful_writePlan hl hd.1
      exact kept_of_idle hidle (tablesLawful_congr hload rfl rfl)
    · exact kept_of_steady htables (steady_trans (steady_of_eq (t := s.drawn) rfl rfl) (steady_tick s.drawn))
  · exact kept_of_steady htables (steady_tick s)

/-! Commands and steps -/

theorem kept_of_request {f : Frame} {carryOut : State → Answer} (hl : s.TablesLawful)
    (h : Host.Outcome.next (s.request f carryOut) = (.next t : Host.Outcome State Fault Refusal))
    (hk : ∀ u : State, u.TablesLawful → (carryOut u).TablesKept u) : s.TablesKept t := by
  obtain rfl := Host.Outcome.next.inj h
  exact kept_request hl f hk

theorem kept_unknownRequestCode {tag code : Byte} {params : List Byte} (hl : s.TablesLawful)
    (h : execUnknownRequestCode tag code params s = .next t) : s.TablesKept t := by
  obtain rfl := Host.Outcome.next.inj h
  split
  · exact kept_refl hl
  · exact kept_request hl _ fun _ _ => trivial

/-- Every command keeps the tables. -/
theorem kept_exec (i : Instr) (hl : s.Lawful) (h : exec i s = .next t) : s.TablesKept t := by
  have htables : s.TablesLawful := ⟨hl.patterns, hl.channels⟩
  cases i with
  | arm tag params => exact kept_of_request htables h fun _ => kept_armAnswer params
  | clearChannel tag params => exact kept_of_request htables h fun _ => kept_clearChannelAnswer params
  | clearObserved tag params => exact kept_of_request htables h fun _ => kept_clearObservedAnswer params
  | configureChannel tag params => exact kept_of_request htables h fun _ => kept_configureChannelAnswer params
  | definePattern tag params => exact kept_of_request htables h fun _ => kept_definePatternAnswer params
  | deletePattern tag params => exact kept_of_request htables h fun _ => kept_deletePatternAnswer params
  | disarm tag params =>
    exact kept_of_request htables h fun u hu => kept_oneParam params fun c => kept_of_steady hu (steady_disarm u c)
  | erasePlan tag params => exact kept_of_request htables h fun _ => kept_erasePlanAnswer params
  | fetch tag params => exact kept_of_request htables h fun _ => kept_fetchAnswer params
  | identify tag params => exact kept_of_request htables h fun _ hu => kept_noParams params (kept_refl hu)
  | inject tag params => exact kept_of_request htables h fun _ => kept_injectAnswer params
  | pause tag params => exact kept_of_request htables h fun _ => kept_pauseAnswer params
  | readChannel tag params => exact kept_of_request htables h fun _ hu => kept_oneParam params fun _ => kept_refl hu
  | readLine tag params => exact kept_of_request htables h fun _ hu => kept_oneParam params fun _ => kept_refl hu
  | readObserved tag params => exact kept_of_request htables h fun _ => kept_readObservedAnswer params
  | readOutput tag params => exact kept_of_request htables h fun _ hu => kept_oneParam params fun _ => kept_refl hu
  | readPattern tag params => exact kept_of_request htables h fun _ => kept_readPatternAnswer params
  | readReaction tag params => exact kept_of_request htables h fun _ hu => kept_oneParam params fun _ => kept_refl hu
  | rearm tag params => exact kept_of_request htables h fun _ => kept_rearmAnswer params
  | resetRequest tag params =>
    exact kept_of_request htables h fun _ hu => kept_noParams params (kept_whenRunning (kept_refl hu))
  | resume tag params => exact kept_of_request htables h fun _ => kept_resumeAnswer params
  | savePlan tag params => exact kept_of_request htables h fun _ => kept_savePlanAnswer params
  | setAttention tag params => exact kept_of_request htables h fun _ => kept_setAttentionAnswer params
  | setLine tag params => exact kept_of_request htables h fun _ => kept_setLineAnswer params
  | setLink tag params => exact kept_of_request htables h fun _ => kept_setLinkAnswer params
  | setOutput tag params => exact kept_of_request htables h fun _ => kept_setOutputAnswer params
  | setReaction tag params => exact kept_of_request htables h fun _ => kept_setReactionAnswer params
  | status tag params => exact kept_of_request htables h fun _ hu => kept_noParams params (kept_refl hu)
  | rawChange l level => exact kept_of_steady htables (steady_rawChange h)
  | qualificationExpiry l => exact kept_of_steady htables (steady_qualificationExpiry h)
  | stepDeadline c =>
    obtain rfl := Host.Outcome.next.inj h
    exact kept_of_steady htables (steady_deliverDeadline s c)
  | acquireExpiry c => exact kept_of_steady htables (steady_acquireExpiry h)
  | frameEndExpiry o => exact kept_of_steady htables (steady_frameEndExpiry h)
  | saveCompletion matched => exact kept_of_steady htables (steady_saveCompletion h)
  | secondBankInvalidation => exact kept_of_steady htables (steady_secondBankInvalidation h)
  | eraseCompletion => exact kept_of_steady htables (steady_eraseCompletion h)
  | powerOn =>
    obtain rfl := Host.Outcome.next.inj h
    exact kept_of_cleared (cleared_beginReset s _)
  | resetLine =>
    obtain rfl := Host.Outcome.next.inj h
    exact kept_of_cleared (cleared_beginReset _ _)
  | resetEnd => exact kept_of_steady htables (steady_resetEnd h)
  | planLoadEnd => exact kept_planLoadEnd hl h
  | byteArrival b => exact kept_of_steady htables (steady_byteArrival h)
  | framingFault => exact kept_of_steady htables (steady_framingFault h)
  | gapExpiry => exact kept_of_steady htables (steady_gapExpiry h)
  | replySent => exact kept_replySent htables h
  | silenceExpiry => exact kept_of_steady htables (steady_silenceExpiry h)
  | unknownRequestCode tag code params => exact kept_unknownRequestCode htables h

/-- The queue of waiting commands and the counter of free choices are no part of any law. -/
theorem lawful_with_pending_draws (hl : s.Lawful) (pending : List Instr) (draws : Nat) :
    ({ s with pending, draws } : State).Lawful :=
  ⟨hl.patterns, hl.channels, hl.lines, hl.claims, hl.outputs, hl.admission, hl.sequence, hl.pending, hl.quiet, hl.reset,
    hl.link, hl.store, hl.deadlines, hl.expiries⟩

/-- A step is a command, carried out on the state with another queue or another counter, or the passing of time. -/
theorem step_cases (h : step s = .next t) :
    (∃ (i : Instr) (pending : List Instr) (draws : Nat), exec i { s with pending, draws } = .next t) ∨ t = s.pass := by
  unfold step at h
  split at h
  · next i rest _ => exact .inl ⟨i, rest, s.draws, h⟩
  · split at h
    · exact .inr (Host.Outcome.next.inj h).symm
    · next i _ => exact .inl ⟨i, s.pending, s.draws + 1, h⟩
    · split at h
      · next i _ => exact .inl ⟨i, s.pending, s.draws + 1, h⟩
      · exact .inr (Host.Outcome.next.inj h).symm

/-- Every step keeps the tables. -/
theorem kept_step (hl : s.Lawful) (h : step s = .next t) : s.TablesKept t := by
  obtain ⟨i, pending, draws, h⟩ | rfl := step_cases h
  · exact kept_congr (kept_exec i (lawful_with_pending_draws hl pending draws) h) rfl rfl rfl rfl
  · exact kept_pass hl

/-- Settles O7, from what every step leaves of the tables. -/
theorem patternLawKept : Obligations.PatternLawKept := fun _ _ hl h => (kept_step hl h).lawful.1

/-- Settles O8, from what every step leaves of the tables. -/
theorem channelLawKept : Obligations.ChannelLawKept :=
  ⟨fun _ _ hl h => (kept_step hl h).lawful.2, fun _ _ hl h => (kept_step hl h).followed⟩

end Sys2Proof.Machine

/-! The pattern requests and the reads, as the executor carries them out in RUNNING. -/

namespace Sys2Proof.Machine

variable {s : State} {f : Frame} {rest : List Frame} {carryOut : State → Answer}

/-! How a taken request is answered -/

theorem request_refused {status : Status} (h : s.Takes f rest) (ha : carryOut (s.taken rest) = .refuse status) :
    s.request f carryOut = s.refused rest f.tag status := by
  rw [request_of_takes s f rest carryOut h]
  exact (congrArg _ ha).trans (answer_refuse s rest f.tag status)

/-- An accepted request whose effect leaves the link and the time: the effect, with the reply in the queue. -/
theorem request_accepted {t : State} {data : List Byte} (h : s.Takes f rest) (ha : carryOut (s.taken rest) = .ok data t)
    (hl : t.link = (s.taken rest).link) (ht : t.time = s.time) :
    s.request f carryOut = { t with link := (s.answered rest f.tag data).link } := by
  rw [request_of_takes s f rest carryOut h]
  exact (congrArg _ ha).trans (answer_ok s t rest f.tag data hl ht)

/-- A request that only reads changes nothing but the link. -/
theorem request_read {data : List Byte} (h : s.Takes f rest) (ha : carryOut (s.taken rest) = .ok data (s.taken rest)) :
    s.request f carryOut = s.answered rest f.tag data :=
  request_accepted (t := s.taken rest) h ha rfl rfl

theorem oneParam_value {α : Type} {b : Byte} {parse : Byte → Option α} {x : α} (hd : s.device = .running)
    (hp : parse b = some x) (k : α → Answer) : oneParam [b] s parse k = k x := by
  simp only [oneParam, hp, whenRunning, hd, if_true]

/-! DEFINE_PATTERN -/

/-- The frame of a lawful pattern, carried out in RUNNING: IN_USE, then POOL_FULL, then the definition (R8 to R13). -/
theorem definePatternAnswer_of_lawful {id : Fin 16} {p : Pattern} (hp : p.Lawful) (hd : s.device = .running) :
    definePatternAnswer ([byte id, levelByte p.startLevel, byte p.steps.length] ++ p.steps.flatMap PatternStep.bytes) s =
      if s.patternFollowed id then .refuse .inUse
      else if 96 - s.stepsInUse + ((s.patterns[id].map (·.steps.length)).getD 0) < p.steps.length then .refuse .poolFull
      else .ok [byte id, byte (s.definePattern id p).freeSteps, byte (s.tablesCleared id)] (s.definePattern id p) := by
  obtain ⟨heven, hmin, hmax, hranges⟩ := hp
  have hn : (byte p.steps.length).toNat = p.steps.length := by rw [byte_toNat]; omega
  have hparse := stepsOf_bytes p.steps hranges
  have hlen : (p.steps.flatMap PatternStep.bytes).length = 7 * (byte p.steps.length).toNat := by
    rw [hn]; exact (stepsOf_some hparse).1
  have hfit := stepsAvailable_eq s id
  rw [slotSteps_eq] at hfit
  simp only [List.cons_append, List.nil_append, definePatternAnswer, hlen, hfit, ne_eq, not_true_eq_false, if_false,
    finOf_byte 16 id (by decide), levelOf_levelByte, hparse, hn, heven, hmin, hmax, and_self, if_true, whenRunning, hd]

theorem tablesCleared_eq (s : State) (id : Fin 16) :
    s.tablesCleared id = if s.patterns[id] ≠ none then (List.finRange 8).countP (s.namesPattern id) else 0 := by
  unfold State.tablesCleared
  cases s.patterns[id] <;> simp

/-- A definition carried out by the executor: the reply, and the patterns and channels of the definition. -/
theorem definePattern_answered (s : State) (id : Fin 16) (p : Pattern) (rest : List Frame) (r : Reply) :
    { (s.taken rest).definePattern id p with link := (s.replied rest r).link } =
      { s.replied rest r with
        patterns := ((s.taken rest).definePattern id p).patterns
        channels := ((s.taken rest).definePattern id p).channels } := by
  rw [definePattern_rest]
  rfl

/-- Settles O35: the three answers of the executor, and for the last one what the definition leaves. -/
theorem definePatternCreatesOrReplaces : Obligations.DefinePatternCreatesOrReplaces := by
  rintro s tag id p params rest hp rfl ⟨htakes, hd⟩
  have hanswer := definePatternAnswer_of_lawful (s := s.taken rest) (id := id) hp hd
  have hfollowed : (s.taken rest).patternFollowed id = true ↔
      ∃ c : Fin 8, s.namesPattern id c = true ∧ s.channels[c].state ≠ .idle := patternFollowed_iff (s.taken rest) id
  refine ⟨fun h _ => congrArg _ (request_refused htakes (hanswer.trans (if_pos (hfollowed.2 h)))), fun hidle => ?_⟩
  have hanswer := hanswer.trans (if_neg fun h => let ⟨c, hn, hc⟩ := hfollowed.1 h; hc (hidle c hn))
  refine ⟨fun h => congrArg _ (request_refused htakes (hanswer.trans (if_pos h))), fun h => ?_⟩
  have hanswer := hanswer.trans (if_neg (Nat.not_lt.2 h))
  have hrest := definePattern_rest (s.taken rest) id p
  have hset := patterns_definePattern (s.taken rest) id p
  refine ⟨_, congrArg Host.Outcome.next (request_accepted htakes hanswer (by rw [hrest]) (by rw [hrest]; rfl)), hset, ?_,
    fun c => channel_definePattern (s.taken rest) id c p, ?_⟩
  · rw [← slotSteps_eq]
    exact stepsInUse_set hset
  · rw [tablesCleared_eq]
    exact definePattern_answered s id p rest _

/-- Settles O36: the three answers of the executor, in the order of the checks. -/
theorem deletePatternEmptiesTheSlot : Obligations.DeletePatternEmptiesTheSlot := by
  rintro s tag id rest ⟨htakes, hd⟩
  have hvalue := oneParam_value (s := s.taken rest) hd (finOf_byte 16 id (by decide))
  refine ⟨fun hnone => ?_, fun hsome hnamed => ?_, fun p hp hnamed => ?_⟩
  · refine congrArg _ (request_refused htakes ((hvalue _).trans ?_))
    have hnone : (s.taken rest).patterns[id] = none := hnone
    simp only [hnone]
  · obtain ⟨p, hp⟩ := Option.ne_none_iff_exists'.1 hsome
    refine congrArg _ (request_refused htakes ((hvalue _).trans ?_))
    have hp : (s.taken rest).patterns[id] = some p := hp
    have hn : (s.taken rest).patternNamed id = true := (patternNamed_iff s id).2 hnamed
    simp only [hp, hn, if_true]
  · have hn : (s.taken rest).patternNamed id = false := by
      rw [← Bool.not_eq_true]
      exact fun h => let ⟨c, hc⟩ := (patternNamed_iff s id).1 h; by rw [hnamed c] at hc; cases hc
    have hsteps : (s.putPattern id none).stepsInUse = s.stepsInUse - p.steps.length := by
      have hsum := stepsInUse_set (s := s) (t := s.putPattern id none) (id := id) (x := none) rfl
      rw [hp] at hsum
      simp only [slotSteps] at hsum
      omega
    have hanswer : deletePatternAnswer [byte id] (s.taken rest) =
        .ok [byte id, byte (96 - (s.stepsInUse - p.steps.length))] ((s.taken rest).putPattern id none) := by
      refine (hvalue _).trans ?_
      have hp : (s.taken rest).patterns[id] = some p := hp
      simp only [hp, hn]
      rw [← hsteps]
      rfl
    exact congrArg _ (request_accepted htakes hanswer rfl rfl)

end Sys2Proof.Machine

/-! The reads of patterns, lines and channels: the fields of their replies. -/

namespace Sys2Proof.Machine

/-! READ_CHANNEL's data, piece by piece -/

/-- The state byte of READ_CHANNEL with the step, the step start and the expiry, each with its presence byte (R51, R170). -/
def ChannelState.positionBytes : ChannelState → List Byte
  | .idle => 0 :: List.replicate 12 0
  | .seeking none => 1 :: List.replicate 12 0
  | .seeking (some due) => 1 :: (List.replicate 7 0 ++ 1 :: be32 due.toNat)
  | .tracking k start due => [2, 1, byte k, 1] ++ be32 start.toNat ++ 1 :: be32 due.toNat
  | .paused => 3 :: List.replicate 12 0
  | .tripped => 4 :: List.replicate 12 0

/-- The twelve bytes of a last-deviation record, with its fields written out (R171). -/
def lastBytes : Option Deviation → List Byte
  | none => List.replicate 12 0
  | some d =>
    [1, d.kind.toByte] ++ (match d.step with | some k => [1, byte k] | none => [0, 0]) ++
      (match d.measured with | some m => 1 :: be24 m | none => [0, 0, 0, 0]) ++ be32 d.time.toNat

theorem deviationBytes_eq (d : Option Deviation) : deviationBytes d = lastBytes d := by
  cases d with
  | none => rfl
  | some d =>
    obtain ⟨kind, step, measured, time⟩ := d
    cases step <;> cases measured <;> rfl

theorem yesNo_tripPending (q : Queue) (src : Source) :
    yesNo (q.tripPending src) = if 0 < tripCount q.notices src then 1 else 0 := by
  simp only [yesNo, tripPending_iff]

theorem channelData_eq (s : State) (c : Fin 8) :
    s.channelData c =
      [byte c] ++ time32 s.time ++ optional (s.channels[c].config.map ChannelConfig.bytes) 10 ++
        s.channels[c].state.positionBytes ++ [byte s.channels[c].strikes, byte s.channels[c].goodRun] ++
        time32 s.channels[c].cycles ++ count16 s.channels[c].counts.early ++ count16 s.channels[c].counts.late ++
        count16 s.channels[c].counts.noSignal ++ count16 s.channels[c].counts.injected ++ lastBytes s.channels[c].last ++
        [if 0 < tripCount s.queue.notices (.channel c) then 1 else 0] := by
  unfold State.channelData
  simp only
  rw [deviationBytes_eq, yesNo_tripPending]
  generalize [byte c] ++ time32 s.time ++ optional (s.channels[c].config.map ChannelConfig.bytes) 10 = front
  cases s.channels[c].state with
  | seeking expiry => cases expiry <;> simp [ChannelState.positionBytes, ChannelState.toByte, optional, time32]
  | _ => simp [ChannelState.positionBytes, ChannelState.toByte, optional, time32]

/-- Settles O37: each read answers its data on the state that it leaves. -/
theorem readsOfPatternsLinesAndChannels : Obligations.ReadsOfPatternsLinesAndChannels := by
  refine ⟨fun s tag rest => ⟨fun id ⟨htakes, hd⟩ => ?_, fun l ⟨htakes, hd⟩ => ?_⟩,
    fun s tag c rest => ⟨fun ⟨htakes, hd⟩ => ?_, fun ⟨htakes, hd⟩ => ?_⟩⟩
  · have hvalue := oneParam_value (s := s.taken rest) hd (finOf_byte 16 id (by decide))
    refine ⟨fun hp => ?_, fun p hp => ?_⟩
    · refine congrArg _ (request_refused htakes ((hvalue _).trans ?_))
      have hp : (s.taken rest).patterns[id] = none := hp
      simp only [hp]
    · refine congrArg _ (request_read htakes ((hvalue _).trans ?_))
      have hp : (s.taken rest).patterns[id] = some p := hp
      simp only [hp]
      rfl
  · have hvalue := oneParam_value (s := s.taken rest) hd (finOf_byte 8 l (by decide))
    refine congrArg _ ((request_read htakes (hvalue _)).trans (congrArg (s.answered rest tag) ?_))
    show s.lineData l = _
    unfold State.lineData
    simp only
    cases s.lines[l].runStart <;> rfl
  · have hvalue := oneParam_value (s := s.taken rest) hd (finOf_byte 8 c (by decide))
    refine congrArg _ ((request_read htakes (hvalue _)).trans (congrArg (s.answered rest tag) ?_))
    refine (channelData_eq s c).trans ?_
    cases s.channels[c].config <;> rfl
  · have hvalue := oneParam_value (s := s.taken rest) hd (finOf_byte 8 c (by decide))
    refine ⟨fun hc => ?_, fun cfg hc => ?_⟩
    · refine congrArg _ (request_refused htakes ((hvalue _).trans ?_))
      have hc : (s.taken rest).channels[c].config = none := hc
      simp only [hc]
    · refine congrArg _ (request_read htakes ((hvalue _).trans ?_))
      have hc : (s.taken rest).channels[c].config = some cfg := hc
      simp only [hc]
      rfl

end Sys2Proof.Machine

/-! What the channels of one line leave, in whatever order they act: each channel its own record, and the rest of the state. -/

namespace Sys2Proof.Machine

variable (s : State) {cs : List (Fin 8)} {c : Fin 8}

/-- `t` differs from `s` at most in the records of the channels of `cs`, the claim lists, the outputs, the Notice Queue and the
counter of free choices. -/
structure State.HandedTo (s : State) (cs : List (Fin 8)) (t : State) : Prop where
  others : ∀ d : Fin 8, d ∉ cs → t.channels[d] = s.channels[d]
  rest : t = { s with
    channels := t.channels, claims := t.claims, outputs := t.outputs, queue := t.queue, draws := t.draws }

variable {s}

theorem lines_of_handedTo {t : State} (h : s.HandedTo cs t) : t.lines = s.lines := by rw [h.rest]

/-- Turns after a free choice that may have been used. -/
theorem handedTo_of_turnsOf {n : Nat} {t : State} (h : State.TurnsOf { s with draws := n } cs t) : s.HandedTo cs t where
  others := h.others
  rest := by
    have hdraws : t.draws = n := by rw [h.rest]
    rw [hdraws]
    exact h.rest

/-! One turn for each channel -/

section
variable {f : Fin 8 → State → State} (hf : ∀ (d : Fin 8) (u : State), u.TurnOf d (f d u))
include hf

theorem handedTo_inSomeOrder (s : State) (cs : List (Fin 8)) : s.HandedTo cs (s.inSomeOrder cs f) := by
  obtain ⟨ds, hp, he⟩ := inSomeOrder_perm s cs f
  have h := turns_foldl id f hf ds { s with draws := if 2 ≤ ds.length then s.draws + 1 else s.draws }
  rw [he]
  exact handedTo_of_turnsOf ⟨fun d hd => h.others d (by simpa [hp.mem_iff] using hd), h.rest⟩

/-- A channel of the list is left with what its own turn makes of it. -/
theorem channel_inSomeOrder (same : ∀ (d : Fin 8) (t u : State), t.AlikeFor d u → (f d t).AlikeFor d (f d u)) (s : State)
    (hn : cs.Nodup) (hc : c ∈ cs) : (s.inSomeOrder cs f).channels[c] = (f c s).channels[c] := by
  obtain ⟨ds, hp, he⟩ := inSomeOrder_perm s cs f
  have hown : ds.filter (fun d => d = c) = [c] := by
    rw [List.filter_eq, List.count_eq_one_of_mem (hp.nodup_iff.2 hn) (hp.mem_iff.2 hc), List.replicate_one]
  have h := foldl_own (fun d : Fin 8 => d) f hf same c ds
    { s with draws := if 2 ≤ ds.length then s.draws + 1 else s.draws } s ⟨rfl, rfl, rfl, rfl⟩
  rw [hown] at h
  rw [he]
  exact h.channel

end

/-! Two turns for each channel -/

section
variable {f : Fin 8 → Bool → State → State} (hf : ∀ (d : Fin 8) (second : Bool) (u : State), u.TurnOf d (f d second u))
include hf

theorem handedTo_inTwoTurns (s : State) (hn : cs.Nodup) : s.HandedTo cs (s.inTwoTurns cs f) := by
  obtain ⟨ts, hts, he⟩ := inTwoTurns_order s cs hn f
  have h := turns_foldl Prod.fst (fun x : Fin 8 × Bool => f x.1 x.2) (fun x => hf x.1 x.2) ts
    { s with draws := if 2 < ts.length then s.draws + 1 else s.draws }
  have hmem (d : Fin 8) (hd : d ∉ cs) : d ∉ ts.map Prod.fst := by
    have hnone := hts d
    rw [if_neg hd, List.filter_eq_nil_iff] at hnone
    intro hm
    obtain ⟨x, hx, rfl⟩ := List.mem_map.1 hm
    exact hnone x hx (by simp)
  rw [he]
  exact handedTo_of_turnsOf ⟨fun d hd => h.others d (hmem d hd), h.rest⟩

/-- A channel of the list is left with what its own two turns make of it. -/
theorem channel_inTwoTurns
    (same : ∀ (d : Fin 8) (second : Bool) (t u : State), t.AlikeFor d u → (f d second t).AlikeFor d (f d second u))
    (s : State) (hn : cs.Nodup) (hc : c ∈ cs) :
    (s.inTwoTurns cs f).channels[c] = (f c true (f c false s)).channels[c] := by
  obtain ⟨ts, hts, he⟩ := inTwoTurns_order s cs hn f
  have hown := hts c
  rw [if_pos hc] at hown
  have h := foldl_own Prod.fst (fun x : Fin 8 × Bool => f x.1 x.2) (fun x => hf x.1 x.2) (fun x => same x.1 x.2) c ts
    { s with draws := if 2 < ts.length then s.draws + 1 else s.draws } s ⟨rfl, rfl, rfl, rfl⟩
  rw [hown] at h
  rw [he]
  exact h.channel

end

/-! The three ways in which a line reaches its channels -/

variable (s) (l : Fin 8) (level : Level) (stamp : Time)

theorem handedTo_deliverEdge : s.HandedTo (s.channelsOf l) (s.deliverEdge l level stamp) :=
  handedTo_inSomeOrder (fun d u => turn_edgeToChannel u d level stamp) s _

theorem handedTo_handOnFilter : s.HandedTo (s.channelsOf l) (s.handOnFilter l) :=
  handedTo_inSomeOrder (fun d u => turn_moveDeadline u d) s _

/-- The turn of a channel with an edge that a SET_LINE accepts, or with the new filter time. -/
def State.lineTurn (s : State) (level : Level) (stamp : Time) (c : Fin 8) (second : Bool) : State :=
  if second then s.moveDeadline c else s.edgeTurn c level stamp

theorem turn_lineTurn (d : Fin 8) (second : Bool) (u : State) : u.TurnOf d (u.lineTurn level stamp d second) := by
  cases second with
  | false => exact turn_edgeTurn u d level stamp
  | true => exact turn_moveDeadline u d

theorem alike_lineTurn (d : Fin 8) (second : Bool) (t u : State) (h : t.AlikeFor d u) :
    (t.lineTurn level stamp d second).AlikeFor d (u.lineTurn level stamp d second) := by
  cases second with
  | false => exact alike_edgeTurn h level stamp
  | true => exact alike_moveDeadline h

theorem edgeThenFilter_eq :
    s.edgeThenFilter l level stamp = s.inTwoTurns (s.channelsOf l) fun d second u => u.lineTurn level stamp d second := rfl

theorem handedTo_edgeThenFilter : s.HandedTo (s.channelsOf l) (s.edgeThenFilter l level stamp) :=
  handedTo_inTwoTurns (turn_lineTurn level stamp) s (nodup_channelsOf s l)

variable {s l}

theorem not_mem_channelsOf (h : s.namesLine l c = false) : c ∉ s.channelsOf l := by
  rw [mem_channelsOf, h]
  exact Bool.false_ne_true

/-- An accepted edge: each channel of the line acts on it as if it were alone (R23). -/
theorem channel_deliverEdge (h : s.namesLine l c = true) :
    (s.deliverEdge l level stamp).channels[c] = (s.edgeToChannel c level stamp).channels[c] :=
  channel_inSomeOrder (fun d u => turn_edgeToChannel u d level stamp) (fun _ _ _ h => alike_edgeToChannel h level stamp) s
    (nodup_channelsOf s l) ((mem_channelsOf s l c).2 h)

/-- A filter time handed on: each channel of the line moves its own deadline (R25). -/
theorem channel_handOnFilter (h : s.namesLine l c = true) :
    (s.handOnFilter l).channels[c] = (s.moveDeadline c).channels[c] :=
  channel_inSomeOrder (fun d u => turn_moveDeadline u d) (fun _ _ _ h => alike_moveDeadline h) s
    (nodup_channelsOf s l) ((mem_channelsOf s l c).2 h)

/-- An edge that a SET_LINE accepts: each channel of the line acts on it and then moves its own deadline (R26). -/
theorem channel_edgeThenFilter (h : s.namesLine l c = true) :
    (s.edgeThenFilter l level stamp).channels[c] = ((s.edgeTurn c level stamp).moveDeadline c).channels[c] :=
  channel_inTwoTurns (turn_lineTurn level stamp) (alike_lineTurn level stamp) s (nodup_channelsOf s l)
    ((mem_channelsOf s l c).2 h)

/-! No channel, and one channel -/

theorem channelsOf_none (h : ∀ d : Fin 8, s.namesLine l d = false) : s.channelsOf l = [] :=
  List.filter_eq_nil_iff.2 fun d _ => by rw [h d]; exact Bool.false_ne_true

/-- Among the eight channels, each stands once. -/
theorem filter_finRange_eq (c : Fin 8) : (List.finRange 8).filter (fun d => decide (d = c)) = [c] := by
  revert c
  decide

theorem channelsOf_one (h : ∀ d : Fin 8, s.namesLine l d = decide (d = c)) : s.channelsOf l = [c] := by
  unfold State.channelsOf
  rw [funext h]
  exact filter_finRange_eq c

/-- Settles O49: each channel of the line acts on the edge from its own record, one after another. -/
theorem anEdgeReachesTheChannelsOfItsLine : Obligations.AnEdgeReachesTheChannelsOfItsLine := by
  refine ⟨fun _ _ _ _ => rfl, ?_⟩
  rintro s l level stamp u rfl
  have hand := handedTo_deliverEdge s l level stamp
  refine ⟨fun c hc => hand.others c (not_mem_channelsOf hc), fun c hc => channel_deliverEdge level stamp hc, fun hnone => ?_,
    fun c hone => ?_, inSomeOrder_perm s (s.channelsOf l) fun c v => v.edgeToChannel c level stamp, hand.rest⟩
  · unfold State.deliverEdge
    rw [channelsOf_none hnone]
    rfl
  · unfold State.deliverEdge
    rw [channelsOf_one hone]
    rfl

end Sys2Proof.Machine

/-! RAW_CHANGE and QUALIFICATION_EXPIRY: how a line's record answers its sample, and the end of its run. -/

namespace Sys2Proof.Machine

variable {s : State} {l : Fin 8} {level : Level}

/-- Outside RUNNING, and after the sample of this microsecond, only the level outside changes (R19, R29). -/
theorem rawChange_unsampled (h : ¬(s.device = .running ∧ s.lines[l].sampled = false)) :
    exec (.rawChange l level) s = .next (s.putLine l { s.lines[l] with pin := level }) :=
  congrArg _ (if_neg h)

section
variable (hd : s.device = .running) (hs : s.lines[l].sampled = false)
include hd hs

/-- The sample finds the raw level: no raw change (R19). -/
theorem rawChange_same (h : level = s.lines[l].raw) :
    exec (.rawChange l level) s = .next (s.putLine l { s.lines[l] with pin := level, sampled := true }) :=
  congrArg _ ((if_pos ⟨hd, hs⟩).trans (if_pos h))

/-- The raw level that the sample brings, before the run is judged. -/
theorem rawChange_differs (h : level ≠ s.lines[l].raw) :
    exec (.rawChange l level) s = .next
      (match s.lines[l].runStart with
      | some _ => s.putLine l { s.lines[l] with
          pin := level, sampled := true, raw := level, runStart := none, runts := satSucc s.lines[l].runts }
      | none =>
        if s.lines[l].filter = 0 then
          (s.putLine l { s.lines[l] with pin := level, sampled := true, raw := level }).acceptEdge l s.time
        else s.putLine l { s.lines[l] with pin := level, sampled := true, raw := level, runStart := some s.time }) :=
  congrArg _ ((if_pos ⟨hd, hs⟩).trans (if_neg h))

end

/-- A line whose record has just been written accepts its raw level: the accepted record is written, and the edge handed on. -/
theorem acceptEdge_putLine (s : State) (l : Fin 8) (x : Line) (stamp : Time) :
    (s.putLine l x).acceptEdge l stamp = (s.putLine l x.accept).deliverEdge l x.raw stamp := by
  unfold State.acceptEdge
  rw [lines_get_putLine_self]
  unfold State.putLine
  simp only [Vector.set_set]

theorem qualificationExpiry_of_run {start : Time} (h : s.lines[l].runStart = some start) :
    exec (.qualificationExpiry l) s = .next
      (if reached s.time (after start s.lines[l].filter) then s.acceptEdge l start else s) := by
  show Host.Outcome.next _ = _
  rw [h]

/-- Settles O48, case by case of the sample and of the run. -/
theorem runsBeginEndAndQualify : Obligations.RunsBeginEndAndQualify := by
  refine ⟨?_, ?_⟩
  · rintro s l level x rfl
    refine ⟨fun h => rawChange_unsampled fun ⟨hd, hs⟩ => ?_, fun hd hs h => rawChange_same hd hs h,
      fun hd hs h => ⟨fun start hrun => ?_, fun hrun hf => ?_, fun hrun hf => ?_⟩⟩
    · obtain h | h := h
      · exact h hd
      · rw [hs] at h; cases h
    · rw [rawChange_differs hd hs h, hrun]
      rfl
    · rw [rawChange_differs hd hs h, hrun]
      exact congrArg _ (if_neg hf)
    · rw [rawChange_differs hd hs h, hrun]
      refine congrArg _ ((if_pos hf).trans ?_)
      rw [acceptEdge_putLine]
      rfl
  · rintro s l x rfl
    refine ⟨fun hrun => ?_, fun start hrun => ⟨fun h => ?_, fun h => ?_⟩⟩
    · show Host.Outcome.next _ = _
      rw [hrun]
    · rw [qualificationExpiry_of_run hrun, h]
      rfl
    · rw [qualificationExpiry_of_run hrun, h]
      rfl

end Sys2Proof.Machine

/-! The deadline of a channel in TRACKING: its delivery, and its move to a new filter time (R25, R49). -/

namespace Sys2Proof.Machine

/-- Channel `c` holds step `k`, begun at `start`, with the deadline `wait` after it. -/
def State.placeDeadline (s : State) (c : Fin 8) (k : Nat) (start : Time) (wait : Nat) : State :=
  s.putChannel c { s.channels[c] with state := .tracking k start (after start wait) }

theorem channel_placeDeadline (s : State) (c : Fin 8) (k : Nat) (start : Time) (wait : Nat) :
    (s.placeDeadline c k start wait).channels[c] = { s.channels[c] with state := .tracking k start (after start wait) } :=
  channels_get_putChannel_self s c _

/-- A channel that is LATE by its deadline is struck and keeps its observed table (R49, R59). -/
theorem channel_lateByDeadline {s : State} {c : Fin 8} {cfg : ChannelConfig} (hc : s.channels[c].config = some cfg)
    (k : Nat) (start : Time) (max : Nat) :
    (s.lateByDeadline c k start max).channels[c].last =
        some { kind := .late, step := some k, measured := some max, time := after start max } ∧
      (s.lateByDeadline c k start max).channels[c].strikes = s.channels[c].strikes + 1 ∧
      (s.lateByDeadline c k start max).channels[c].observed = s.channels[c].observed := by
  have hput := channels_get_putChannel_self s c
    { s.channels[c] with closure := some { step := k, closing := after start max } }
  unfold State.lateByDeadline
  simp only
  rw [handleDeviation_channel _ c _ cfg (by rw [hput]; exact hc), hput]
  exact ⟨rfl, rfl, rfl⟩

variable {s : State} {c : Fin 8} {cfg : ChannelConfig} {p : Pattern} {k : Nat} {st : PatternStep} {start due : Time}

theorem deliverDeadline_of_not_tracking (h : ∀ k start due, s.channels[c].state ≠ .tracking k start due) :
    s.deliverDeadline c = s := by
  unfold State.deliverDeadline
  split
  · next ht _ => exact absurd ht (h _ _ _)
  · rfl

theorem moveDeadline_of_not_tracking (h : ∀ k start due, s.channels[c].state ≠ .tracking k start due) :
    s.moveDeadline c = s := by
  unfold State.moveDeadline
  split
  · next ht _ => exact absurd ht (h _ _ _)
  · rfl

section
variable (hc : s.channels[c].config = some cfg) (hp : s.patterns[cfg.pattern] = some p) (hst : p.steps[k]? = some st)
  (hk : s.channels[c].state = .tracking k start due)
include hc hp hst hk

theorem deliverDeadline_of_tracking :
    s.deliverDeadline c = if reached s.time due then s.lateByDeadline c k start st.max else s := by
  unfold State.deliverDeadline
  rw [hk, patternOf_eq hc, hp]
  simp only [hst]

/-- The deadline is placed at step start + max + F, and then delivered when it has been reached. -/
theorem moveDeadline_of_tracking :
    s.moveDeadline c = (s.placeDeadline c k start (st.max + s.lines[cfg.line].filter)).deliverDeadline c := by
  unfold State.moveDeadline State.filterOf
  rw [hk, patternOf_eq hc, hp, hc]
  simp only [hst]
  rfl

/-- A moved deadline is delivered at once when it has been reached. -/
theorem moveDeadline_eq :
    s.moveDeadline c =
      if reached s.time (after start (st.max + s.lines[cfg.line].filter)) then
        (s.placeDeadline c k start (st.max + s.lines[cfg.line].filter)).lateByDeadline c k start st.max
      else s.placeDeadline c k start (st.max + s.lines[cfg.line].filter) := by
  have hplaced := channel_placeDeadline s c k start (st.max + s.lines[cfg.line].filter)
  exact (moveDeadline_of_tracking hc hp hst hk).trans (deliverDeadline_of_tracking (cfg := cfg)
    ((congrArg Channel.config hplaced).trans hc) hp hst (congrArg Channel.state hplaced))

end

end Sys2Proof.Machine

/-! SET_LINE: the filter time replaced and judged against the run, what it hands to the channels, and the line's record. -/

namespace Sys2Proof.Machine

variable (s : State) (l : Fin 8) (f : Nat) (clear : Bool)

/-- The run of a line, if any, has lasted a filter time (R26). -/
def Line.lasted (x : Line) (now : Time) (f : Nat) : Bool :=
  match x.runStart with
  | some start => decide (f ≤ elapsed now start)
  | none => false

/-- A line's record after an accepted SET_LINE (R25 to R27). -/
def Line.refiltered (x : Line) (now : Time) (f : Nat) (clear : Bool) : Line :=
  { pin := x.pin, sampled := x.sampled, filter := f, raw := x.raw
    filtered := if x.lasted now f then x.raw else x.filtered
    runStart := if x.lasted now f then none else x.runStart
    runts := if clear then 0 else x.runts
    edges := if clear then 0 else if x.lasted now f then x.edges + 1 else x.edges }

/-- SET_LINE before the counts are cleared: F replaced, and the accepted edge with the new F, or the new F alone, handed to the
channels (R25, R26). -/
def State.replaceFilter (s : State) (l : Fin 8) (f : Nat) : State :=
  match s.lines[l].runStart with
  | some start =>
    if f ≤ elapsed s.time start then
      (s.putLine l { s.lines[l] with filter := f }.accept).edgeThenFilter l s.lines[l].raw start
    else (s.putLine l { s.lines[l] with filter := f }).handOnFilter l
  | none => (s.putLine l { s.lines[l] with filter := f }).handOnFilter l

variable {s l f}

theorem replaceFilter_accepted {start : Time} (hrun : s.lines[l].runStart = some start) (h : f ≤ elapsed s.time start) :
    s.replaceFilter l f =
      (s.putLine l { s.lines[l] with filter := f }.accept).edgeThenFilter l s.lines[l].raw start := by
  unfold State.replaceFilter
  rw [hrun]
  exact if_pos h

theorem replaceFilter_handOn (h : s.lines[l].lasted s.time f = false) :
    s.replaceFilter l f = (s.putLine l { s.lines[l] with filter := f }).handOnFilter l := by
  unfold State.replaceFilter
  unfold Line.lasted at h
  split
  · next start hrun =>
    rw [hrun] at h
    exact if_neg (of_decide_eq_false h)
  · rfl

theorem lasted_iff {x : Line} {now : Time} :
    x.lasted now f = true ↔ ∃ start, x.runStart = some start ∧ f ≤ elapsed now start := by
  unfold Line.lasted
  cases x.runStart <;> simp

variable (s l f)

/-- What SET_LINE hands on reaches the channels of the line, from a state in which only the line's record has changed. -/
theorem handedTo_replaceFilter :
    (s.putLine l (s.lines[l].refiltered s.time f false)).HandedTo (s.channelsOf l) (s.replaceFilter l f) := by
  unfold Line.refiltered
  by_cases h : s.lines[l].lasted s.time f = true
  · obtain ⟨start, hrun, hf⟩ := lasted_iff.1 h
    rw [replaceFilter_accepted hrun hf, h]
    exact handedTo_edgeThenFilter _ l _ start
  · rw [Bool.not_eq_true] at h
    rw [replaceFilter_handOn h, h]
    exact handedTo_handOnFilter _ l

theorem lines_replaceFilter : (s.replaceFilter l f).lines = s.lines.set l (s.lines[l].refiltered s.time f false) :=
  lines_of_handedTo (handedTo_replaceFilter s l f)

theorem putLine_putLine (x y : Line) : (s.putLine l x).putLine l y = s.putLine l y := by
  unfold State.putLine
  simp only [Vector.set_set]

/-- SET_LINE hands on, and then the counts are cleared when asked (R25 to R27). -/
theorem setFilter_eq :
    s.setFilter l f clear =
      ({ s.replaceFilter l f with lines := s.lines.set l (s.lines[l].refiltered s.time f clear) },
        s.lines[l].lasted s.time f) := by
  have hraw : s.setFilter l f clear =
      (if clear then
        (s.replaceFilter l f).putLine l { (s.replaceFilter l f).lines[l] with runts := 0, edges := 0 }
      else s.replaceFilter l f, s.lines[l].lasted s.time f) := by
    unfold State.setFilter State.replaceFilter Line.lasted
    simp only [lines_get_putLine_self]
    obtain hrun | ⟨start, hrun⟩ := Option.eq_none_or_eq_some s.lines[l].runStart
    · simp only [hrun]
    · by_cases h : f ≤ elapsed s.time start
      · simp only [hrun, h, if_true, decide_true, putLine_putLine]
      · simp only [hrun, h, if_false, decide_false]
  have hlines := lines_replaceFilter s l f
  rw [hraw]
  cases clear with
  | false =>
    rw [← hlines]
    rfl
  | true =>
    have hget : (s.replaceFilter l f).lines[l] = s.lines[l].refiltered s.time f false := by
      rw [hlines]; exact lines_get_putLine_self s l _
    simp only [if_true, hget]
    unfold State.putLine
    rw [hlines, Vector.set_set]
    rfl

/-- The executor's answer to a SET_LINE in range. -/
theorem setLineAnswer_of_running (hf : f ≤ 1023) (hd : s.device = .running) :
    setLineAnswer ([byte l] ++ be16 f ++ [yesNo clear]) s =
      .ok ([byte l] ++ be16 f ++ be16 s.lines[l].runts.toNat ++ be32 s.lines[l].edges.toNat ++
          [yesNo (s.lines[l].lasted s.time f)])
        { s.replaceFilter l f with lines := s.lines.set l (s.lines[l].refiltered s.time f clear) } := by
  have hn := nat16_be16 f (by omega)
  have hfilter : (s.lines.set l (s.lines[l].refiltered s.time f clear))[l].filter = f :=
    congrArg Line.filter (lines_get_putLine_self s l _)
  simp only [be16, List.cons_append, List.nil_append, setLineAnswer, finOf_byte 8 l (by decide), boolOf_yesNo, hn,
    Config.maxFilter, hf, if_true, whenRunning, hd, setFilter_eq, hfilter, count16, time32]

variable {s l f}

/-- The new filter time alone moves the deadline of a channel in TRACKING, which is LATE by it when it has been reached. -/
theorem channel_handOnFilter_tracking {c : Fin 8} {cfg : ChannelConfig} {p : Pattern} {k : Nat} {st : PatternStep}
    {start due : Time} (hf : s.lines[cfg.line].filter = f) (hc : s.channels[c].config = some cfg)
    (hp : s.patterns[cfg.pattern] = some p) (hst : p.steps[k]? = some st)
    (hk : s.channels[c].state = .tracking k start due) :
    (reached s.time (after start (st.max + f)) = false →
        (s.handOnFilter cfg.line).channels[c] =
          { s.channels[c] with state := .tracking k start (after start (st.max + f)) }) ∧
      (reached s.time (after start (st.max + f)) = true →
        (s.handOnFilter cfg.line).channels[c].last =
            some { kind := .late, step := some k, measured := some st.max, time := after start st.max } ∧
          (s.handOnFilter cfg.line).channels[c].strikes = s.channels[c].strikes + 1 ∧
          (s.handOnFilter cfg.line).channels[c].observed = s.channels[c].observed) := by
  have hnames : s.namesLine cfg.line c = true := by
    unfold State.namesLine
    rw [hc]
    exact decide_eq_true rfl
  have hmove := moveDeadline_eq hc hp hst hk
  have hplaced := channel_placeDeadline s c k start (st.max + f)
  rw [hf] at hmove
  rw [channel_handOnFilter hnames, hmove]
  refine ⟨fun h => ?_, fun h => ?_⟩
  · rw [if_neg (by rw [Bool.not_eq_true]; exact h)]
    exact hplaced
  · rw [if_pos h]
    have hlate := channel_lateByDeadline ((congrArg Channel.config hplaced).trans hc) k start st.max
    rw [hplaced] at hlate
    exact hlate

/-- The filter time is replaced in the record of the line alone; the rest is what the channels leave. -/
theorem replaceFilter_rest (s : State) (l : Fin 8) (f : Nat) :
    s.replaceFilter l f = { s with
      lines := (s.replaceFilter l f).lines, channels := (s.replaceFilter l f).channels
      claims := (s.replaceFilter l f).claims, outputs := (s.replaceFilter l f).outputs
      queue := (s.replaceFilter l f).queue, draws := (s.replaceFilter l f).draws } := by
  rw [lines_replaceFilter]
  exact (handedTo_replaceFilter s l f).rest

/-- Settles O47: the executor's answer, what is handed to the channels, and the move of one channel's deadline. -/
theorem setLineReplacesTheFilterTime : Obligations.SetLineReplacesTheFilterTime := by
  refine ⟨?_, fun v l => inSomeOrder_perm v (v.channelsOf l) fun c u => u.moveDeadline c, fun v l level stamp => ?_,
    fun v c => ⟨moveDeadline_of_not_tracking, ?_⟩⟩
  · rintro s tag l f clear accepted params rest x u v w hf rfl ⟨htakes, hd⟩ rfl haccepted rfl rfl hw
    have hlasted : accepted = (s.taken rest).lines[l].lasted (s.taken rest).time f := haccepted
    have hw : w = (s.taken rest).replaceFilter l f := hw
    have hrest := replaceFilter_rest (s.taken rest) l f
    rw [hlasted, hw]
    refine ⟨?_, fun c hc => (handedTo_replaceFilter (s.taken rest) l f).others c (not_mem_channelsOf hc),
      fun hno c cfg p k st start due hc hl hp hst hk => ?_, fun start hrun hyes c hc => ?_, hrest⟩
    · have hanswer := setLineAnswer_of_running (s.taken rest) l f clear hf hd
      exact congrArg _ (request_accepted htakes hanswer (by rw [hrest]) (by rw [hrest]; rfl))
    · subst hl
      rw [replaceFilter_handOn hno]
      have hfilter :
          ((s.taken rest).putLine cfg.line { (s.taken rest).lines[cfg.line] with filter := f }).lines[cfg.line].filter = f :=
        congrArg Line.filter (lines_get_putLine_self _ cfg.line _)
      exact channel_handOnFilter_tracking hfilter hc hp hst hk
    · obtain ⟨start', hrun', hlast⟩ := lasted_iff.1 hyes
      obtain rfl : start = start' := Option.some.inj (hrun.symm.trans hrun')
      rw [replaceFilter_accepted hrun' hlast]
      exact channel_edgeThenFilter _ start hc
  · obtain ⟨turns, hturns, he⟩ := inTwoTurns_order v _ (nodup_channelsOf v l) fun c second u =>
      if second then u.moveDeadline c else u.edgeTurn c level stamp
    exact ⟨turns, fun c => by rw [hturns c]; simp only [mem_channelsOf], he⟩
  · rintro cfg p k st start due u hc hp hst hk rfl
    have hmove := moveDeadline_eq hc hp hst hk
    refine ⟨fun h => hmove.trans (if_neg (by rw [Bool.not_eq_true]; exact h)), fun _ => ?_⟩
    exact congrArg _ (moveDeadline_of_tracking hc hp hst hk).symm

end Sys2Proof.Machine

/-! The events that are due, and the step on an empty queue (R17, R18, R143). -/

namespace Sys2Proof.Machine

variable {s : State}

/-- Event `i` is due: its expiry, its sample, its frame or its bound stands at the present device time (R18, R19, R143). -/
inductive State.Due (s : State) : Instr → Prop
  | frame {f : Frame} {rest : List Frame} (takes : s.Takes f rest) : s.Due (Instr.ofFrame f)
  | sample {l : Fin 8} (running : s.device = .running) (unsampled : s.lines[l].sampled = false)
      (differs : s.lines[l].pin ≠ s.lines[l].raw) : s.Due (.rawChange l s.lines[l].pin)
  | qualification {l : Fin 8} {start : Time} (held : s.lines[l].runStart = some start)
      (met : reached s.time (after start s.lines[l].filter) = true) : s.Due (.qualificationExpiry l)
  | deadline {c : Fin 8} {k : Nat} {start due : Time} (held : s.channels[c].state = .tracking k start due)
      (met : reached s.time due = true) : s.Due (.stepDeadline c)
  | acquire {c : Fin 8} {due : Time} (held : s.channels[c].state = .seeking (some due))
      (met : reached s.time due = true) : s.Due (.acquireExpiry c)
  | frameEnd {o : Fin 6} {start : Time} (held : s.outputs[o].frameStart = some start)
      (met : reached s.time (after start (frameLength s.outputs[o].rate)) = true) : s.Due (.frameEndExpiry o)
  | gap {due : Time} (held : s.link.receiver.gap = some due) (met : reached s.time due = true) : s.Due .gapExpiry
  | replyEnd {r : Reply} {rest : List Reply} {start : Time} (front : s.link.replies = r :: rest)
      (sending : s.link.sendStart = some start)
      (met : reached s.time (after start (byteTimes (r.data.length + 6))) = true) : s.Due .replySent
  | silence {due : Time} (held : s.link.source = .watching due) (met : reached s.time due = true) : s.Due .silenceExpiry
  | save {target : BankId} {g : Count32} {img : Image} {since : Time} (saving : s.store.op = .saving target g img since)
      (met : 80000 ≤ elapsed s.time since) : s.Due (.saveCompletion (Config.readBackMatches s.draws))
  | erase {remaining : Option BankId} {since : Time} (erasing : s.store.op = .erasing remaining since)
      (met : 50000 ≤ elapsed s.time since) : s.Due .eraseCompletion
  | load (starting : s.device = .starting) (met : 5000 ≤ s.time.toNat) : s.Due .planLoadEnd

/-! Each part of the list of due events -/

theorem due_eq_true (expiry : Option Time) : s.due expiry = true ↔ ∃ due, expiry = some due ∧ reached s.time due = true := by
  cases expiry <;> simp [State.due]

variable {i : Instr}

theorem takes_iff (f : Frame) (rest : List Frame) :
    s.Takes f rest ↔ s.device ≠ .reset ∧ s.link.inbox = f :: rest ∧ s.link.executorReady = true := by
  rw [executorReady_iff]
  rfl

theorem mem_takeEvent (hd : s.device ≠ .reset) :
    i ∈ s.takeEvent ↔ ∃ f rest, i = Instr.ofFrame f ∧ s.Takes f rest := by
  simp only [takes_iff]
  unfold State.takeEvent
  cases s.link.inbox with
  | nil => simp
  | cons f rest => by_cases hr : s.link.executorReady = true <;> simp [hr, hd]

theorem sampleDue_iff (l : Fin 8) :
    s.sampleDue l = true ↔
      s.device = .running ∧ s.lines[l].sampled = false ∧ s.lines[l].pin ≠ s.lines[l].raw := by
  simp [State.sampleDue, and_assoc]

theorem channelExpiry_eq_some (ch : Channel) (due : Time) :
    ch.expiry = some due ↔ ch.state = .seeking (some due) ∨ ∃ k start, ch.state = .tracking k start due := by
  unfold Channel.expiry
  cases ch.state <;> simp

theorem sentTime_eq_some (k : Link) (due : Time) :
    k.sentTime = some due ↔ ∃ r rest start, k.replies = r :: rest ∧ k.sendStart = some start ∧
      after start (byteTimes (r.data.length + 6)) = due := by
  unfold Link.sentTime
  cases k.replies <;> cases k.sendStart <;> simp

theorem mem_storeEvent :
    i ∈ s.storeEvent ↔
      (∃ target g img since, s.store.op = .saving target g img since ∧ 80000 ≤ elapsed s.time since ∧
        i = .saveCompletion (Config.readBackMatches s.draws)) ∨
      ∃ remaining since, s.store.op = .erasing remaining since ∧ 50000 ≤ elapsed s.time since ∧ i = .eraseCompletion := by
  unfold State.storeEvent
  cases s.store.op with
  | idle => simp
  | saving target g img since => by_cases h : 80000 ≤ elapsed s.time since <;> simp [h]
  | erasing remaining since => by_cases h : 50000 ≤ elapsed s.time since <;> simp [h]

theorem mem_loadEvent : i ∈ s.loadEvent ↔ s.device = .starting ∧ 5000 ≤ s.time.toNat ∧ i = .planLoadEnd := by
  unfold State.loadEvent
  by_cases h : s.device = .starting ∧ 5000 ≤ s.time.toNat
  · simp [h]
  · simp only [h, if_false, List.not_mem_nil, false_iff]
    exact fun ⟨hd, ht, _⟩ => h ⟨hd, ht⟩

/-- LINK's silence timer has run out (R148). -/
def State.silenceEvent (s : State) : List Instr :=
  match s.link.source with
  | .watching due => if s.due (some due) then [.silenceExpiry] else []
  | _ => []

theorem mem_silenceEvent :
    i ∈ s.silenceEvent ↔ ∃ due, s.link.source = .watching due ∧ reached s.time due = true ∧ i = .silenceExpiry := by
  unfold State.silenceEvent
  cases s.link.source with
  | off => simp
  | tripped => simp
  | watching due => by_cases h : reached s.time due = true <;> simp [State.due, h]

theorem dueEvents_of_not_reset (hd : s.device ≠ .reset) :
    s.dueEvents =
      s.takeEvent ++
      ((List.finRange 8).filter s.sampleDue).map (fun l => .rawChange l s.lines[l].pin) ++
      ((List.finRange 8).filter fun l => s.due s.lines[l].expiry).map Instr.qualificationExpiry ++
      ((List.finRange 8).filter fun c => s.due s.channels[c].expiry).map (fun c => s.channels[c].expiryEvent c) ++
      ((List.finRange 6).filter fun o => s.due s.outputs[o].frameEnd).map Instr.frameEndExpiry ++
      (if s.due s.link.receiver.gap then [.gapExpiry] else []) ++
      (if s.due s.link.sentTime then [.replySent] else []) ++
      s.silenceEvent ++ s.storeEvent ++ s.loadEvent :=
  if_neg hd

/-- The events of the list are those that are due; in RESET there is none. -/
theorem mem_dueEvents : i ∈ s.dueEvents ↔ s.device ≠ .reset ∧ s.Due i := by
  by_cases hd : s.device = .reset
  · simp [State.dueEvents, hd]
  · simp only [dueEvents_of_not_reset hd, List.mem_append, mem_takeEvent hd, List.mem_map, List.mem_filter, List.mem_finRange,
      true_and, sampleDue_iff, due_eq_true, Line.expiry, Generator.frameEnd, Option.map_eq_some_iff, channelExpiry_eq_some,
      List.mem_ite_nil_right, List.mem_singleton, sentTime_eq_some, mem_silenceEvent, mem_storeEvent, mem_loadEvent,
      or_assoc]
    refine ⟨?_, ?_⟩
    · rintro (⟨f, rest, rfl, takes⟩ | ⟨l, ⟨running, unsampled, differs⟩, rfl⟩ | ⟨l, ⟨due, ⟨start, held, rfl⟩, met⟩, rfl⟩ |
        ⟨c, ⟨due, held | ⟨k, start, held⟩, met⟩, rfl⟩ | ⟨o, ⟨due, ⟨start, held, rfl⟩, met⟩, rfl⟩ | ⟨⟨due, held, met⟩, rfl⟩ |
        ⟨⟨due, ⟨r, rest, start, front, sending, rfl⟩, met⟩, rfl⟩ | ⟨due, held, met, rfl⟩ |
        ⟨target, g, img, since, saving, met, rfl⟩ | ⟨remaining, since, erasing, met, rfl⟩ | ⟨starting, met, rfl⟩)
      · exact ⟨hd, .frame takes⟩
      · exact ⟨hd, .sample running unsampled differs⟩
      · exact ⟨hd, .qualification held met⟩
      · rw [Channel.expiryEvent, held]; exact ⟨hd, .acquire held met⟩
      · rw [Channel.expiryEvent, held]; exact ⟨hd, .deadline held met⟩
      · exact ⟨hd, .frameEnd held met⟩
      · exact ⟨hd, .gap held met⟩
      · exact ⟨hd, .replyEnd front sending met⟩
      · exact ⟨hd, .silence held met⟩
      · exact ⟨hd, .save saving met⟩
      · exact ⟨hd, .erase erasing met⟩
      · exact ⟨hd, .load starting met⟩
    · rintro ⟨-, h⟩
      cases h with
      | frame takes => exact .inl ⟨_, _, rfl, takes⟩
      | sample running unsampled differs => exact .inr (.inl ⟨_, ⟨running, unsampled, differs⟩, rfl⟩)
      | qualification held met => exact .inr (.inr (.inl ⟨_, ⟨_, ⟨_, held, rfl⟩, met⟩, rfl⟩))
      | deadline held met => exact .inr (.inr (.inr (.inl ⟨_, ⟨_, .inr ⟨_, _, held⟩, met⟩, by rw [Channel.expiryEvent, held]⟩)))
      | acquire held met => exact .inr (.inr (.inr (.inl ⟨_, ⟨_, .inl held, met⟩, by rw [Channel.expiryEvent, held]⟩)))
      | frameEnd held met => exact .inr (.inr (.inr (.inr (.inl ⟨_, ⟨_, ⟨_, held, rfl⟩, met⟩, rfl⟩))))
      | gap held met => exact .inr (.inr (.inr (.inr (.inr (.inl ⟨⟨_, held, met⟩, rfl⟩)))))
      | replyEnd front sending met => exact .inr (.inr (.inr (.inr (.inr (.inr (.inl ⟨⟨_, ⟨_, _, _, front, sending, rfl⟩, met⟩, rfl⟩))))))
      | silence held met => exact .inr (.inr (.inr (.inr (.inr (.inr (.inr (.inl ⟨_, held, met, rfl⟩)))))))
      | save saving met => exact .inr (.inr (.inr (.inr (.inr (.inr (.inr (.inr (.inl ⟨_, _, _, _, saving, met, rfl⟩))))))))
      | erase erasing met => exact .inr (.inr (.inr (.inr (.inr (.inr (.inr (.inr (.inr (.inl ⟨_, _, erasing, met, rfl⟩)))))))))
      | load starting met => exact .inr (.inr (.inr (.inr (.inr (.inr (.inr (.inr (.inr (.inr (⟨starting, met, rfl⟩))))))))))

/-! The step on an empty queue -/

/-- The free choice among due events takes one of them. -/
theorem pick_mem (s : State) {events : List Instr} (h : events ≠ []) : ∃ i ∈ events, s.pick events = some i := by
  have hlt : Config.eventChoice s.draws % events.length < events.length := Nat.mod_lt _ (List.length_pos_iff.2 h)
  exact ⟨_, List.getElem_mem hlt, List.getElem?_eq_getElem hlt⟩

theorem step_of_nothing_due (hq : s.pending = []) (h : s.dueEvents = []) : step s = .next s.pass := by
  unfold step
  rw [hq, h]

theorem step_of_due (hq : s.pending = []) (h : s.dueEvents ≠ []) : ∃ i ∈ s.dueEvents, step s = exec i s.drawn := by
  unfold step
  rw [hq]
  obtain ⟨i, hmem, hpick⟩ := pick_mem s h
  simp only
  split
  · next hnone => exact absurd hnone h
  · next j hone => exact ⟨j, by rw [hone]; exact List.mem_singleton_self j, rfl⟩
  · exact ⟨i, hmem, by rw [hpick]⟩

theorem pass_of_written (h : ¬(s.device = .starting ∧ s.planWritten = false)) : s.pass = s.tick := if_neg h

theorem pass_of_unwritten (hd : s.device = .starting) (hp : s.planWritten = false) :
    s.pass = if Config.planWritten s.draws then s.drawn.writePlan else s.drawn.tick := if_pos ⟨hd, hp⟩

theorem tick_of_not_reset (hd : s.device ≠ .reset) :
    s.tick = { s with
      time := s.time + 1
      channels := Vector.ofFn fun c : Fin 8 => { s.channels[c] with closure := none }
      lines := Vector.ofFn fun l : Fin 8 => { s.lines[l] with sampled := false } } := if_neg hd

theorem tick_of_reset (hd : s.device = .reset) : s.tick = s := if_pos hd

/-- Settles O2: an empty queue, and each event that is due. -/
theorem withNoCommandTimePassesOrAnEventIsTaken : Obligations.WithNoCommandTimePassesOrAnEventIsTaken := by
  refine ⟨fun s hq => ⟨fun hnone hd => ?_, ?_, step_of_due hq⟩, fun s => ⟨fun hd => if_pos hd, fun i hi => ?_⟩, fun s hd => ?_⟩
  · rw [step_of_nothing_due hq hnone, pass_of_written (fun ⟨h, _⟩ => by rw [hd] at h; cases h), tick_of_reset hd]
  · rintro hnone hd tick rfl
    refine ⟨fun h => ?_, fun hs hp => ?_⟩
    · have hwritten : ¬(s.device = .starting ∧ s.planWritten = false) := by
        rintro ⟨hs, hp⟩
        rw [hs, hp] at h
        simp at h
      rw [step_of_nothing_due hq hnone, pass_of_written hwritten, tick_of_not_reset hd]
    · rw [step_of_nothing_due hq hnone, pass_of_unwritten hs hp, tick_of_not_reset (s := s.drawn) hd]
      rfl
  · obtain ⟨hd, h⟩ := mem_dueEvents.1 hi
    refine ⟨hd, ?_⟩
    cases h with
    | frame takes => exact .inr (.inr (.inr (.inr (.inr (.inr (.inr (.inl ⟨_, _, rfl, takes⟩)))))))
    | sample running unsampled differs => exact .inr (.inr (.inr (.inr (.inr (.inr (.inl ⟨_, rfl, running, unsampled, differs⟩))))))
    | qualification held met => exact .inl ⟨_, _, rfl, held, met⟩
    | deadline held met => exact .inr (.inl ⟨_, _, _, _, rfl, held, met⟩)
    | acquire held met => exact .inr (.inr (.inl ⟨_, _, rfl, held, met⟩))
    | frameEnd held met => exact .inr (.inr (.inr (.inl ⟨_, _, rfl, held, met⟩)))
    | gap held met => exact .inr (.inr (.inr (.inr (.inl ⟨_, rfl, held, met⟩))))
    | replyEnd front sending met => exact .inr (.inr (.inr (.inr (.inr (.inr (.inr (.inr (.inl ⟨_, _, _, rfl, front, sending, met⟩))))))))
    | silence held met => exact .inr (.inr (.inr (.inr (.inr (.inl ⟨_, rfl, held, met⟩)))))
    | save saving met => exact .inr (.inr (.inr (.inr (.inr (.inr (.inr (.inr (.inr (.inl ⟨_, _, _, _, _, rfl, saving, met⟩)))))))))
    | erase erasing met => exact .inr (.inr (.inr (.inr (.inr (.inr (.inr (.inr (.inr (.inr (.inl ⟨_, _, rfl, erasing, met⟩))))))))))
    | load starting met => exact .inr (.inr (.inr (.inr (.inr (.inr (.inr (.inr (.inr (.inr (.inr (⟨rfl, starting, met⟩)))))))))))
  · have due {i : Instr} (h : s.Due i) : i ∈ s.dueEvents := mem_dueEvents.2 ⟨hd, h⟩
    exact ⟨fun _ _ held met => due (.qualification held met), fun _ _ _ _ held met => due (.deadline held met),
      fun _ _ held met => due (.acquire held met), fun _ _ held met => due (.frameEnd held met),
      fun _ held met => due (.gap held met), fun _ held met => due (.silence held met),
      fun _ running unsampled differs => due (.sample running unsampled differs), fun _ _ takes => due (.frame takes),
      fun _ _ _ front sending met => due (.replyEnd front sending met), fun _ _ _ _ saving met => ⟨_, due (.save saving met)⟩,
      fun _ _ erasing met => due (.erase erasing met), fun starting met => due (.load starting met)⟩

end Sys2Proof.Machine

/-! The end of the load: the plan that is selected, and what RUNNING entry leaves in each block (R133 to R136). -/

namespace Sys2Proof.Machine

variable {s : State} {img : Image}

/-! The selection -/

theorem valid_of_newest {st : Store} {i : BankId} (h : st.newest = some i) : (st.bank i).valid = true := by
  unfold Store.newest at h
  have valid {b : Bank} {g : Count32} (hg : b.generation = some g) : b.valid = true := (generation_some b g hg).1
  split at h
  · cases h
  · next ha _ => cases h; exact valid ha
  · next _ hb => cases h; exact valid hb
  · next ha hb =>
    split at h
    · cases h; exact valid hb
    · cases h; exact valid ha

theorem selectPlan_of_none {st : Store} (h : st.newest = none) : st.selectPlan = (Image.defaults, .none, none) := by
  unfold Store.selectPlan
  rw [h]

/-- The outcome that names a bank (R121). -/
def BankId.outcome : BankId → PlanOutcome
  | .a => .bankA
  | .b => .bankB

theorem selectPlan_of_newest {st : Store} {i : BankId} {c : BankContent} (h : st.newest = some i)
    (hc : (st.bank i).content = some c) :
    st.selectPlan =
      if c.image.accepted then (c.image, i.outcome, some c.generation)
      else (Image.defaults, .rejected, none) := by
  have hsaved : (st.bank i).saved = some c := by
    unfold Bank.saved
    rw [valid_of_newest h]
    exact hc
  unfold Store.selectPlan
  rw [h]
  simp only [hsaved]
  rfl

/-- The checks of R134 that the outputs and the lines rest on. -/
theorem accepted_outputs_filters (h : img.accepted = true) :
    (∀ o : Fin 6, (∃ d, driveOfNat img.outputs[o].base = some d) ∧ img.outputs[o].rate < 5) ∧
      ∀ l : Fin 8, img.filters[l] ≤ 1023 := by
  simp only [Image.accepted, Bool.and_eq_true, List.all_eq_true, decide_eq_true_eq] at h
  obtain ⟨⟨⟨⟨-, houtputs⟩, hfilters⟩, -⟩, -⟩ := h
  refine ⟨fun o => ?_, fun l => hfilters img.filters[l] (by simp)⟩
  have ho := houtputs img.outputs[o] (by simp)
  simp only [ImageOutput.accepted, Bool.and_eq_true, decide_eq_true_eq] at ho
  exact ⟨Option.isSome_iff_exists.1 ho.1, Nat.lt_succ_of_le ho.2⟩

/-! The blocks after the load -/

theorem lines_loadPlan (s : State) (img : Image) (l : Fin 8) :
    (s.loadPlan img).lines[l] = { s.lines[l] with filter := img.filters[l] } := Vector.getElem_ofFn l.isLt

theorem reactions_loadPlan (s : State) (img : Image) (i : Fin 32) :
    (s.loadPlan img).reactions[i] = img.reactions[i].bind ImageReaction.toReaction := Vector.getElem_ofFn i.isLt

/-- The base and the rate of an accepted image are written as they stand, the rest of the record stays (R104). -/
theorem outputs_loadPlan (s : State) (h : img.accepted = true) (o : Fin 6) :
    ∃ base rate, driveOfNat img.outputs[o].base = some base ∧ (rate : Fin 5).val = img.outputs[o].rate ∧
      (s.loadPlan img).outputs[o] = { s.outputs[o] with base, rate } := by
  obtain ⟨⟨base, hbase⟩, hrate⟩ := (accepted_outputs_filters h).1 o
  refine ⟨base, ⟨_, hrate⟩, hbase, rfl, (Vector.getElem_ofFn o.isLt).trans ?_⟩
  have hbase : driveOfNat img.outputs[o.val].base = some base := hbase
  have hrate : img.outputs[o.val].rate < 5 := hrate
  simp [hbase, hrate]

/-! The blocks at RUNNING entry -/

theorem lines_enterBlocks (s : State) (l : Fin 8) : s.enterBlocks.lines[l] = s.lines[l].enterRunning :=
  Vector.getElem_ofFn l.isLt

theorem outputs_enterBlocks (s : State) (o : Fin 6) :
    s.enterBlocks.outputs[o] = s.outputs[o].immediate s.time s.outputs[o].base := Vector.getElem_ofFn o.isLt

/-- Arming the boot-armed channels changes nothing but the channels. -/
theorem bootArm_rest (s : State) : s.bootArm = { s with channels := s.bootArm.channels } := by
  refine forChannels_induct (fun t => t = { s with channels := t.channels }) s _ rfl fun c t h => ?_
  split
  · have harm : t.armChannel c = { t with channels := (t.armChannel c).channels } := rfl
    rw [harm, h]
  · exact h

theorem alike_armChannel {t u : State} {c : Fin 8} (h : t.AlikeFor c u) : (t.armChannel c).AlikeFor c (u.armChannel c) :=
  alike_turn h (turn_armChannel t c) (turn_armChannel u c)
    (by rw [channel_armChannel, channel_armChannel, alike_patternOf h, h.channel, h.time])

/-- A boot-armed channel is armed as by ARM; any other stays (R54, R136). -/
theorem channel_bootArm (s : State) (c : Fin 8) :
    s.bootArm.channels[c] = (if s.bootArmed c then s.armChannel c else s).channels[c] := by
  refine channel_forChannels s c (fun d u => ?_) fun d t u h => ?_
  · split
    · exact turn_armChannel u d
    · exact turn_refl u d
  · have hboot : t.bootArmed d = u.bootArmed d := by unfold State.bootArmed; rw [h.channel]
    rw [hboot]
    split
    · exact alike_armChannel h
    · exact h

/-- A configuration is boot-armed. -/
def bootArmedConfig : Option ChannelConfig → Bool
  | some cfg => cfg.bootArmed
  | none => false

/-- A channel in RUNNING after a load: nothing counted, its table sized to its pattern, in SEEKING when it is boot-armed. -/
def Channel.started (table : Vector (Option Pattern) 16) (now : Time) (cfg : Option ChannelConfig) : Channel :=
  { config := cfg, strikes := 0, goodRun := 0, cycles := 0, counts := .zero, last := none, closure := none
    observed := match cfg with
      | some c => match table[c.pattern] with
        | some p => clearedTable p.steps.length
        | none => []
      | none => []
    state := match cfg with
      | some c => if c.bootArmed then .seeking (c.acquire.map (after now)) else .idle
      | none => .idle }

/-- What `QuietLaw` asks of a channel: in IDLE with nothing counted (R54). -/
def Channel.Quiet (ch : Channel) : Prop :=
  ch.state = .idle ∧ ch.strikes = 0 ∧ ch.goodRun = 0 ∧ ch.cycles = 0 ∧ ch.counts = ⟨0, 0, 0, 0⟩ ∧ ch.last = none

/-- A quiet channel with a loaded configuration, armed when the configuration says so (R54, R135, R136). -/
theorem channel_bootArm_loaded {s u : State} {c : Fin 8} {cfg : Option ChannelConfig}
    (hquiet : s.channels[c].Quiet)
    (hu : u.channels[c] = s.channels[c].load u.patterns cfg) :
    u.bootArm.channels[c] = Channel.started u.patterns u.time cfg := by
  have hload : u.channels[c] = { Channel.started u.patterns u.time cfg with state := .idle } := by
    obtain ⟨hstate, hstrikes, hgood, hcycles, hcounts, hlast⟩ := hquiet
    rw [hu]
    unfold Channel.load
    rw [hstate, hstrikes, hgood, hcycles, hcounts, hlast]
    rfl
  have hconfig : u.channels[c].config = cfg := congrArg Channel.config hload
  have harmed : u.bootArmed c = bootArmedConfig cfg := by rw [← hconfig]; rfl
  rw [channel_bootArm, harmed]
  cases cfg with
  | none => exact hload
  | some cfg =>
    cases hboot : cfg.bootArmed with
    | false =>
      rw [if_neg (by show ¬cfg.bootArmed = true; rw [hboot]; exact Bool.false_ne_true), hload]
      simp [Channel.started, hboot]
    | true =>
      rw [if_pos (by exact hboot), channel_armChannel, patternOf_eq hconfig, hload]
      cases hp : u.patterns[cfg.pattern] with
      | none => simp [Channel.started, hboot, hp, clearedTable]
      | some p => simp [Channel.started, hboot, hp]

theorem channel_enterRunning_loaded {s u : State} {c : Fin 8} {cfg : Option ChannelConfig} (outcome : PlanOutcome)
    (g : Option Count32) (hquiet : s.channels[c].Quiet)
    (hu : u.channels[c] = s.channels[c].load u.patterns cfg) :
    (u.enterRunning outcome g).channels[c] = Channel.started u.patterns u.time cfg := by
  unfold State.enterRunning
  exact channel_bootArm_loaded hquiet hu

/-- The first notice, offered to an empty queue (R121). -/
theorem offer_first {q : Queue} (hn : q.notices = []) (hs : q.nextSeq = 0) (hd : q.dropped = 0) (now : Time)
    (src : NoticeSource) (body : NoticeBody) :
    q.offer now src body =
      { notices := [{ sequence := 0, time := now, source := src, body }], nextSeq := 1, dropped := 0, mask := q.mask } := by
  rw [offer_admitted _ _ _ _ (.inr (by rw [hn]; decide)), hn, hs, hd]
  simp only [Queue.next, hs, List.nil_append]
  rfl

/-- RUNNING entry: the blocks' running state, the STARTED notice, and the channels that have been armed. -/
theorem enterRunning_rest (s : State) (outcome : PlanOutcome) (g : Option Count32) :
    s.enterRunning outcome g =
      { s.enterBlocks with
        channels := (s.enterRunning outcome g).channels
        queue := s.queue.offer s.time .device
          (.started s.cause outcome g
            ((List.finRange 8).countP fun c => bootArmedConfig (s.enterRunning outcome g).channels[c].config)) } := by
  have hconfig : s.bootArmed = fun c => bootArmedConfig (s.enterRunning outcome g).channels[c].config :=
    funext fun c => by rw [(steady_enterRunning s outcome g).config c]; rfl
  rw [← hconfig]
  exact bootArm_rest _

/-- What the load and RUNNING entry leave of a quiet part in STARTING. -/
theorem planLoadEnd_of_selection {outcome : PlanOutcome} {g : Option Count32} (hd : s.device = .starting)
    (h : s.store.selectPlan = (img, outcome, g)) :
    exec .planLoadEnd s = .next ((s.loadPlan img).enterRunning outcome g) := by
  show execPlanLoadEnd s = _
  unfold execPlanLoadEnd
  rw [if_pos hd, h]

/-- Settles O34, block by block. -/
theorem theLoadEndsInRunning : Obligations.TheLoadEndsInRunning := by
  intro s img outcome g hl hd hsel
  have hselect : s.store.selectPlan = (img, outcome, g) := by
    obtain ⟨hnone, rfl, rfl, rfl⟩ | ⟨i, c, hi, hc, hcase⟩ := hsel
    · exact selectPlan_of_none hnone
    · rw [selectPlan_of_newest hi hc]
      split at hcase
      · next hacc =>
        obtain ⟨rfl, rfl, rfl⟩ := hcase
        rw [if_pos hacc]
        cases i <;> rfl
      · next hacc =>
        obtain ⟨rfl, rfl, rfl⟩ := hcase
        rw [if_neg hacc]
  have hacc : img.accepted = true := by
    have h := accepted_selectPlan s.store
    rw [hselect] at h
    exact h
  obtain ⟨hchannels, hquiet, -, hnotices, hseq, hdropped, -, hop⟩ := hl.quiet (by rw [hd]; nofun)
  obtain ⟨channels, hrunning, hstarted⟩ : ∃ channels : Vector Channel 8,
      (s.loadPlan img).enterRunning outcome g =
        { (s.loadPlan img).enterBlocks with
          channels
          queue := (s.loadPlan img).queue.offer s.time .device
            (.started s.cause outcome g ((List.finRange 8).countP fun c => bootArmedConfig channels[c].config)) } ∧
      ∀ c : Fin 8, channels[c] = Channel.started img.table s.time (img.channels[c].bind ImageConfig.toConfig) :=
    ⟨_, enterRunning_rest (s.loadPlan img) outcome g, fun c =>
      channel_enterRunning_loaded (u := s.loadPlan img) outcome g (hchannels c) (channels_loadPlan s img c)⟩
  refine ⟨_, (planLoadEnd_of_selection hd hselect).trans (congrArg _ hrunning), rfl, rfl, rfl, rfl, rfl, rfl, rfl, rfl, rfl,
    fun c => ?channels, reactions_loadPlan s img, fun o => ?outputs, fun l => ?lines, rfl, ?queue⟩
  case channels =>
    rw [hstarted c]
    generalize img.table = table
    exact ⟨rfl, rfl, rfl, rfl, rfl, rfl, rfl, rfl, rfl⟩
  case outputs =>
    obtain ⟨hclaims, -, -⟩ := hquiet o
    obtain ⟨base, rate, hbase, hrate, hout⟩ := outputs_loadPlan s hacc o
    have hentered := outputs_enterBlocks (s.loadPlan img) o
    rw [hout] at hentered
    show s.claims[o] = [] ∧ _
    refine ⟨hclaims, ?_⟩
    rw [show (s.loadPlan img).enterBlocks.outputs[o] = _ from hentered]
    exact ⟨rfl, rfl, hbase, hrate, rfl⟩
  case lines =>
    have hentered := lines_enterBlocks (s.loadPlan img) l
    rw [lines_loadPlan] at hentered
    exact hentered
  case queue => exact offer_first (q := (s.loadPlan img).queue) hnotices hseq hdropped s.time .device _

end Sys2Proof.Machine

/-! Held expiries: the arithmetic of a wait that device time has not passed (R17, R18). -/

namespace Sys2Proof.Machine

variable {now start : Time} {n : Nat}

theorem after_toNat (t : Time) (n : Nat) : (after t n).toNat = (t.toNat + n) % 2 ^ 32 := by
  simp [after, BitVec.toNat_add]

theorem elapsed_eq (a b : Time) : elapsed a b = (2 ^ 32 - b.toNat + a.toNat) % 2 ^ 32 := BitVec.toNat_sub a b

/-- An expiry placed now lies its whole wait ahead. -/
theorem ahead_after (now : Time) (n : Nat) : ahead now (after now n) n := by
  unfold ahead
  rw [elapsed_eq, after_toNat]
  have := now.isLt
  omega

/-- A wait begun less than half the wrap ago has not been passed when its end has not been reached. -/
theorem ahead_of_not_reached (hs : elapsed now start < 2 ^ 31) (h : reached now (after start n) = false) :
    ahead now (after start n) n := by
  rw [reached_false_iff] at h
  unfold ahead
  rw [elapsed_eq] at hs h ⊢
  rw [after_toNat] at h ⊢
  have := now.isLt
  have := start.isLt
  omega

/-- A wait whose end has not been passed began at most that wait ago. -/
theorem elapsed_le_of_ahead (hn : n < 2 ^ 31) (h : ahead now (after start n) n) : elapsed now start ≤ n := by
  unfold ahead at h
  rw [elapsed_eq, after_toNat] at h
  rw [elapsed_eq]
  have := now.isLt
  have := start.isLt
  omega

/-- One microsecond later a wait that is not over is still within its length. -/
theorem elapsed_tick (hn : n < 2 ^ 31) (h : elapsed now start ≤ n) (hr : reached now (after start n) = false) :
    elapsed (now + 1) start ≤ n := by
  rw [reached_false_iff] at hr
  rw [elapsed_eq] at h hr ⊢
  rw [after_toNat] at hr
  have h1 : (now + 1).toNat = (now.toNat + 1) % 2 ^ 32 := by simp [BitVec.toNat_add]
  rw [h1]
  have := now.isLt
  have := start.isLt
  omega

/-- A wait that has not been passed is over exactly now. -/
theorem elapsed_end (hn : n < 2 ^ 31) (h : elapsed now start ≤ n) (hr : reached now (after start n) = true) :
    elapsed now (after start n) = 0 := by
  rw [reached_iff] at hr
  rw [elapsed_eq] at h hr ⊢
  rw [after_toNat] at hr ⊢
  have := now.isLt
  have := start.isLt
  omega

/-- A time that lies in the past is not the time one microsecond later. -/
theorem ne_tick_of_elapsed (hn : n < 2 ^ 31) (h : elapsed now start ≤ n) : start ≠ now + 1 := by
  rintro rfl
  rw [elapsed_eq] at h
  have h1 : (now + 1).toNat = (now.toNat + 1) % 2 ^ 32 := by simp [BitVec.toNat_add]
  rw [h1] at h
  have := now.isLt
  omega

theorem heldWithin_iff (t : Option Time) : heldWithin now t n ↔ ∀ start, t = some start → elapsed now start ≤ n := by
  cases t <;> simp [heldWithin]

end Sys2Proof.Machine

/-! The expiry that a channel holds, under any condition on a held step deadline; and what a channel's turn makes of it. -/

namespace Sys2Proof.Machine

/-- The acquire expiry is held exactly with a limit, and device time has not passed it (R37). -/
def acquireHeld (now : Time) : Option Nat → Option Time → Prop
  | some limit, some due => ahead now due limit
  | none, none => True
  | _, _ => False

theorem acquireHeld_placed (now : Time) (limit : Option Nat) : acquireHeld now limit (limit.map (after now)) := by
  cases limit with
  | none => trivial
  | some n => exact ahead_after now n

/-- What `DeadlineLawAt` asks of channel `c`, with `Q start due wait` in the place of its condition on a step deadline `due`
of a step begun at `start` that may last `wait`. -/
inductive State.ExpiryWith (Q : Time → Time → Nat → Prop) (s : State) (c : Fin 8) : Prop
  | tracking {k : Nat} {start due : Time} {cfg : ChannelConfig} {p : Pattern} {st : PatternStep}
      (state : s.channels[c].state = .tracking k start due) (config : s.channels[c].config = some cfg)
      (pattern : s.patterns[cfg.pattern] = some p) (step : p.steps[k]? = some st)
      (held : Q start due (st.max + s.lines[cfg.line].filter))
  | seeking {expiry : Option Time} {cfg : ChannelConfig} (state : s.channels[c].state = .seeking expiry)
      (config : s.channels[c].config = some cfg) (held : acquireHeld s.time cfg.acquire expiry)
  | quiet (state : s.channels[c].state = .idle ∨ s.channels[c].state = .paused ∨ s.channels[c].state = .tripped)
  | unconfigured (config : s.channels[c].config = none)

/-- The deadline stands where it was placed, and device time has not passed it (R43, R49). -/
def notPassed (now start due : Time) (wait : Nat) : Prop := due = after start wait ∧ ahead now due wait

/-- The deadline stands where it was placed, and device time has reached it or not passed it. -/
def placed (now start due : Time) (wait : Nat) : Prop :=
  due = after start wait ∧ (reached now due = false → ahead now due wait)

/-- The step began less than half the wrap ago, wherever its deadline stands. -/
def begun (now start _due : Time) (_wait : Nat) : Prop := elapsed now start < 2 ^ 31

variable {s t : State} {c : Fin 8} {Q : Time → Time → Nat → Prop}

theorem deadlineLawAt_iff : s.DeadlineLawAt c ↔ s.ExpiryWith (notPassed s.time) c := by
  unfold State.DeadlineLawAt
  constructor
  · intro h
    split at h
    · next state config =>
      split at h
      · exact h.elim
      · next pattern =>
        split at h
        · exact h.elim
        · next step => exact .tracking state config pattern step h
    · next state config =>
      refine .seeking state config ?_
      unfold acquireHeld
      split at h <;> simp_all
    · next htracking hseeking =>
      cases hcfg : s.channels[c].config with
      | none => exact .unconfigured hcfg
      | some cfg =>
        refine .quiet ?_
        cases hstate : s.channels[c].state with
        | idle => exact .inl rfl
        | seeking expiry => exact (hseeking _ _ hstate hcfg).elim
        | tracking k start due => exact (htracking _ _ _ _ hstate hcfg).elim
        | paused => exact .inr (.inl rfl)
        | tripped => exact .inr (.inr rfl)
  · intro h
    cases h with
    | tracking state config pattern step held =>
      rw [state, config]
      simp only [pattern, step]
      exact held
    | seeking state config held =>
      rw [state, config]
      exact held
    | quiet state => obtain h | h | h := state <;> rw [h] <;> trivial
    | unconfigured config => rw [config]; cases s.channels[c].state <;> trivial

/-- The expiry of a channel reads its state and its configuration, its pattern, the filter time of its line and the time. -/
theorem expiryWith_congr (h : s.ExpiryWith Q c) (htime : t.time = s.time)
    (hpattern : ∀ cfg, s.channels[c].config = some cfg → t.patterns[cfg.pattern] = s.patterns[cfg.pattern])
    (hfilter : ∀ cfg, s.channels[c].config = some cfg → t.lines[cfg.line].filter = s.lines[cfg.line].filter)
    (hstate : t.channels[c].state = s.channels[c].state)
    (hconfig : t.channels[c].config = s.channels[c].config) : t.ExpiryWith Q c := by
  cases h with
  | tracking state config pattern step held =>
    exact .tracking (hstate.trans state) (hconfig.trans config) ((hpattern _ config).trans pattern) step
      (by rw [hfilter _ config]; exact held)
  | seeking state config held =>
    exact .seeking (hstate.trans state) (hconfig.trans config) (by rw [htime]; exact held)
  | quiet state => exact .quiet (by rw [hstate]; exact state)
  | unconfigured config => exact .unconfigured (hconfig.trans config)

/-- A new record with the state and the configuration of the old one. -/
theorem expiryWith_putChannel {x : Channel} (h : s.ExpiryWith Q c) (hstate : x.state = s.channels[c].state)
    (hconfig : x.config = s.channels[c].config) : (s.putChannel c x).ExpiryWith Q c := by
  have hput := channels_get_putChannel_self s c x
  exact expiryWith_congr h rfl (fun _ _ => rfl) (fun _ _ => rfl) (by rw [hput]; exact hstate) (by rw [hput]; exact hconfig)

/-- A channel that enters SEEKING places its acquire expiry (R37). -/
theorem expiryWith_of_seeking {u : State} (htime : t.time = u.time)
    (hstate : t.channels[c].state = .seeking ((t.channels[c].config.bind (·.acquire)).map (after u.time))) :
    t.ExpiryWith Q c := by
  cases hconfig : t.channels[c].config with
  | none => exact .unconfigured hconfig
  | some cfg =>
    rw [hconfig] at hstate
    refine .seeking hstate hconfig ?_
    rw [htime]
    exact acquireHeld_placed u.time cfg.acquire

/-- The handling of a deviation ends in TRIPPED or in SEEKING, whatever was held before (R61). -/
theorem expiryWith_handleDeviation (s : State) (c : Fin 8) (dev : Deviation) : (s.handleDeviation c dev).ExpiryWith Q c := by
  cases hc : s.channels[c].config with
  | none =>
    refine .unconfigured ?_
    obtain ⟨-, -, hconfig, -⟩ := handleDeviation_keeps s c dev
    exact hconfig.trans hc
  | some cfg =>
    have hchannel := handleDeviation_channel s c dev cfg hc
    have htime := (turn_handleDeviation s c dev).time
    split at hchannel
    · exact .quiet (.inr (.inr (by rw [hchannel])))
    · refine expiryWith_of_seeking htime ?_
      have hconfig : (s.handleDeviation c dev).channels[c].config = some cfg := by rw [hchannel]; exact hc
      rw [hconfig, hchannel]
      rfl

theorem expiryWith_closeByEdge (stamp : Time) (h : s.ExpiryWith Q c) : (s.closeByEdge c stamp).ExpiryWith Q c := by
  unfold State.closeByEdge
  split
  · split
    · split
      · exact expiryWith_putChannel h rfl rfl
      · exact h
    · exact h
  · exact h

/-! An edge: the channel keeps what it held, or places what the edge begins -/

section
variable {stamp : Time} (hQ : ∀ wait, Q stamp (after stamp wait) wait)
include hQ

theorem expiryWith_enterStep (k : Nat) (h : s.ExpiryWith Q c) : (s.enterStep c k stamp).ExpiryWith Q c := by
  unfold State.enterStep
  split
  · exact h
  · next p hp =>
    split
    · exact h
    · next st hst =>
      obtain ⟨cfg, hc, hp⟩ := patternOf_some hp
      have hput := channels_get_putChannel_self s c
        { s.channels[c] with state := .tracking k stamp (after stamp (st.max + s.filterOf c)) }
      refine .tracking (by rw [hput]) (by rw [hput]; exact hc) hp hst ?_
      unfold State.filterOf
      rw [hc]
      exact hQ _

theorem expiryWith_syncEdge (level : Level) (h : s.ExpiryWith Q c) : (s.syncEdge c level stamp).ExpiryWith Q c := by
  unfold State.syncEdge
  split
  · exact h
  · split
    · exact expiryWith_enterStep hQ 0 h
    · exact h

theorem expiryWith_handleByEdge (s : State) (c : Fin 8) (dev : Deviation) (level : Level) :
    (s.handleByEdge c dev level stamp).ExpiryWith Q c := by
  have h := expiryWith_handleDeviation (Q := Q) s c dev
  unfold State.handleByEdge
  simp only
  split
  · exact expiryWith_syncEdge hQ level h
  · exact h

theorem expiryWith_passStep (cfg : ChannelConfig) (p : Pattern) (st : PatternStep) (k d : Nat) (h : s.ExpiryWith Q c) :
    (s.passStep c cfg p st k d stamp).ExpiryWith Q c := by
  have hadvance (u : State) (hu : u.ExpiryWith Q c) :
      (if k + 1 = p.steps.length then (u.putChannel c (u.channels[c].completeCycle cfg.forgive)).enterStep c 0 stamp
        else u.enterStep c (k + 1) stamp).ExpiryWith Q c := by
    split
    · exact expiryWith_enterStep hQ 0 (expiryWith_putChannel hu (state_completeCycle _ _) (config_completeCycle _ _))
    · exact expiryWith_enterStep hQ (k + 1) hu
  unfold State.passStep
  apply hadvance
  split
  · exact expiryWith_congr h rfl (fun _ _ => rfl) (fun _ _ => rfl) rfl rfl
  · exact h

theorem expiryWith_trackEdge (cfg : ChannelConfig) (k : Nat) (start : Time) (level : Level) (h : s.ExpiryWith Q c) :
    (s.trackEdge c cfg k start level stamp).ExpiryWith Q c := by
  unfold State.trackEdge
  split
  · exact h
  · split
    · exact h
    · simp only
      split
      · exact expiryWith_handleByEdge hQ _ c _ level
      · split
        · exact expiryWith_passStep hQ cfg _ _ k _ (expiryWith_putChannel h rfl rfl)
        · exact expiryWith_handleByEdge hQ _ c _ level

theorem expiryWith_edgeTurn (level : Level) (h : s.ExpiryWith Q c) : (s.edgeTurn c level stamp).ExpiryWith Q c := by
  have hclose := expiryWith_closeByEdge stamp h
  unfold State.edgeTurn
  simp only
  split
  · exact expiryWith_syncEdge hQ level hclose
  · exact expiryWith_trackEdge hQ _ _ _ level hclose
  · exact hclose

end

/-! A deadline delivered, an edge delivered, and a deadline moved -/

theorem deliverDeadline_of_unconfigured (h : s.channels[c].config = none) : s.deliverDeadline c = s := by
  unfold State.deliverDeadline State.patternOf
  rw [h]
  cases s.channels[c].state <;> rfl

theorem moveDeadline_of_unconfigured (h : s.channels[c].config = none) : s.moveDeadline c = s := by
  unfold State.moveDeadline State.patternOf
  rw [h]
  cases s.channels[c].state <;> rfl

/-- After its delivery no deadline that device time has reached is held. -/
theorem deadlineLawAt_deliverDeadline (h : s.ExpiryWith (placed s.time) c) : (s.deliverDeadline c).DeadlineLawAt c := by
  rw [deadlineLawAt_iff, (turn_deliverDeadline s c).time]
  cases h with
  | tracking state config pattern step held =>
    rw [deliverDeadline_of_tracking config pattern step state]
    split
    · exact expiryWith_handleDeviation _ c _
    · next hnot => exact .tracking state config pattern step ⟨held.1, held.2 (by simpa using hnot)⟩
  | seeking state config held =>
    rw [deliverDeadline_of_not_tracking (by rw [state]; nofun)]
    exact .seeking state config held
  | quiet state =>
    rw [deliverDeadline_of_not_tracking (by obtain h | h | h := state <;> rw [h] <;> nofun)]
    exact .quiet state
  | unconfigured config =>
    rw [deliverDeadline_of_unconfigured config]
    exact .unconfigured config

theorem expiryWith_mono {R : Time → Time → Nat → Prop} (h : s.ExpiryWith Q c)
    (hQR : ∀ start due wait, Q start due wait → R start due wait) : s.ExpiryWith R c := by
  cases h with
  | tracking state config pattern step held => exact .tracking state config pattern step (hQR _ _ _ held)
  | seeking state config held => exact .seeking state config held
  | quiet state => exact .quiet state
  | unconfigured config => exact .unconfigured config

theorem placed_of_notPassed {now start due : Time} {wait : Nat} (h : notPassed now start due wait) :
    placed now start due wait := ⟨h.1, fun _ => h.2⟩

/-- An edge that was accepted less than half the wrap after its stamp, delivered to its channel (R23, R43). -/
theorem deadlineLawAt_edgeToChannel {stamp : Time} (level : Level) (hstamp : elapsed s.time stamp < 2 ^ 31)
    (h : s.DeadlineLawAt c) : (s.edgeToChannel c level stamp).DeadlineLawAt c := by
  have hplaced : s.ExpiryWith (placed s.time) c :=
    expiryWith_mono (deadlineLawAt_iff.1 h) fun _ _ _ => placed_of_notPassed
  refine deadlineLawAt_deliverDeadline ?_
  rw [(turn_edgeTurn s c level stamp).time]
  exact expiryWith_edgeTurn (fun _ => ⟨rfl, ahead_of_not_reached hstamp⟩) level hplaced

/-- A deadline moved to the present filter time, wherever it stood (R25, R49). -/
theorem deadlineLawAt_moveDeadline (h : s.ExpiryWith (begun s.time) c) : (s.moveDeadline c).DeadlineLawAt c := by
  cases h with
  | @tracking k start due cfg p st state config pattern step held =>
    have hplaced := channel_placeDeadline s c k start (st.max + s.lines[cfg.line].filter)
    rw [moveDeadline_of_tracking config pattern step state]
    exact deadlineLawAt_deliverDeadline (.tracking (congrArg Channel.state hplaced)
      ((congrArg Channel.config hplaced).trans config) pattern step ⟨rfl, ahead_of_not_reached held⟩)
  | seeking state config held =>
    rw [moveDeadline_of_not_tracking (by rw [state]; nofun), deadlineLawAt_iff]
    exact .seeking state config held
  | quiet state =>
    rw [moveDeadline_of_not_tracking (by obtain h | h | h := state <;> rw [h] <;> nofun), deadlineLawAt_iff]
    exact .quiet state
  | unconfigured config =>
    rw [moveDeadline_of_unconfigured config, deadlineLawAt_iff]
    exact .unconfigured config

end Sys2Proof.Machine

/-! What the turns of channels act on: channel records, claims, outputs and notices, and nothing that times a wait elsewhere. -/

namespace Sys2Proof.Machine

/-- `t` comes from `s` by writing channel records, offering notices, putting claim lists in force and using free choices. -/
inductive State.Acts (s : State) : State → Prop
  | refl : s.Acts s
  | put {t : State} (c : Fin 8) (x : Channel) (h : s.Acts t) : s.Acts (t.putChannel c x)
  | offer {t : State} (now : Time) (src : NoticeSource) (body : NoticeBody) (h : s.Acts t) : s.Acts (t.offer now src body)
  | claims {t : State} (new : Vector (List Claim) 6) (h : s.Acts t) : s.Acts (t.setClaims new)
  | choose {t : State} (n : Nat) (h : s.Acts t) : s.Acts { t with draws := n }

variable {s t : State} {c : Fin 8}

theorem acts_handleDeviation (dev : Deviation) (h : s.Acts t) : s.Acts (t.handleDeviation c dev) := by
  unfold State.handleDeviation
  split
  · exact h
  · simp only
    split
    · exact .offer _ _ _ (.claims _ (.put c _ (.put c _ h)))
    · split
      · exact .put c _ (.offer _ _ _ (.put c _ h))
      · exact .put c _ (.put c _ h)

theorem acts_deliverDeadline (h : s.Acts t) : s.Acts (t.deliverDeadline c) := by
  unfold State.deliverDeadline
  split
  · split
    · split
      · exact acts_handleDeviation _ (.put c _ h)
      · exact h
    · exact h
  · exact h

theorem acts_enterStep (k : Nat) (stamp : Time) (h : s.Acts t) : s.Acts (t.enterStep c k stamp) := by
  unfold State.enterStep
  split
  · exact h
  · split
    · exact h
    · exact .put c _ h

theorem acts_syncEdge (level : Level) (stamp : Time) (h : s.Acts t) : s.Acts (t.syncEdge c level stamp) := by
  unfold State.syncEdge
  split
  · exact h
  · split
    · exact acts_enterStep 0 stamp h
    · exact h

theorem acts_handleByEdge (dev : Deviation) (level : Level) (stamp : Time) (h : s.Acts t) :
    s.Acts (t.handleByEdge c dev level stamp) := by
  unfold State.handleByEdge
  simp only
  split
  · exact acts_syncEdge level stamp (acts_handleDeviation dev h)
  · exact acts_handleDeviation dev h

theorem acts_passStep (cfg : ChannelConfig) (p : Pattern) (st : PatternStep) (k d : Nat) (stamp : Time) (h : s.Acts t) :
    s.Acts (t.passStep c cfg p st k d stamp) := by
  have hadvance (u : State) (hu : s.Acts u) :
      s.Acts (if k + 1 = p.steps.length then (u.putChannel c (u.channels[c].completeCycle cfg.forgive)).enterStep c 0 stamp
        else u.enterStep c (k + 1) stamp) := by
    split
    · exact acts_enterStep 0 stamp (.put c _ hu)
    · exact acts_enterStep (k + 1) stamp hu
  unfold State.passStep
  apply hadvance
  split
  · exact .offer _ _ _ h
  · exact h

theorem acts_trackEdge (cfg : ChannelConfig) (k : Nat) (start : Time) (level : Level) (stamp : Time) (h : s.Acts t) :
    s.Acts (t.trackEdge c cfg k start level stamp) := by
  unfold State.trackEdge
  split
  · exact h
  · split
    · exact h
    · have hput := State.Acts.put c (t.channels[c].observe k (elapsed stamp start)) h
      simp only
      split
      · exact acts_handleByEdge _ level stamp hput
      · split
        · exact acts_passStep cfg _ _ k _ stamp hput
        · exact acts_handleByEdge _ level stamp hput

theorem acts_closeByEdge (stamp : Time) (h : s.Acts t) : s.Acts (t.closeByEdge c stamp) := by
  unfold State.closeByEdge
  split
  · split
    · split
      · exact .put c _ h
      · exact h
    · exact h
  · exact h

theorem acts_edgeTurn (level : Level) (stamp : Time) (h : s.Acts t) : s.Acts (t.edgeTurn c level stamp) := by
  have hclose := acts_closeByEdge (c := c) stamp h
  unfold State.edgeTurn
  simp only
  split
  · exact acts_syncEdge level stamp hclose
  · exact acts_trackEdge _ _ _ level stamp hclose
  · exact hclose

theorem acts_moveDeadline (h : s.Acts t) : s.Acts (t.moveDeadline c) := by
  unfold State.moveDeadline
  split
  · split
    · exact h
    · exact acts_deliverDeadline (.put c _ h)
  · exact h

theorem acts_foldl {α : Type} {f : α → State → State} (hf : ∀ (x : α) (u : State), s.Acts u → s.Acts (f x u)) (xs : List α)
    (h : s.Acts t) : s.Acts (xs.foldl (fun u x => f x u) t) := by
  induction xs generalizing t with
  | nil => exact h
  | cons x xs ih => exact ih (hf x t h)

theorem acts_inSomeOrder (s : State) (cs : List (Fin 8)) {f : Fin 8 → State → State}
    (hf : ∀ (d : Fin 8) (u : State), s.Acts u → s.Acts (f d u)) : s.Acts (s.inSomeOrder cs f) :=
  inSomeOrder_induct s.Acts s cs f .refl (.choose _ .refl) fun d _ u h => hf d u h

theorem acts_deliverEdge (s : State) (l : Fin 8) (level : Level) (stamp : Time) : s.Acts (s.deliverEdge l level stamp) :=
  acts_inSomeOrder s _ fun _ _ h => acts_deliverDeadline (acts_edgeTurn level stamp h)

theorem acts_handOnFilter (s : State) (l : Fin 8) : s.Acts (s.handOnFilter l) :=
  acts_inSomeOrder s _ fun _ _ h => acts_moveDeadline h

theorem acts_edgeThenFilter (s : State) (l : Fin 8) (level : Level) (stamp : Time) :
    s.Acts (s.edgeThenFilter l level stamp) := by
  obtain ⟨ts, -, he⟩ := inTwoTurns_order s _ (nodup_channelsOf s l) fun d second u => u.lineTurn level stamp d second
  rw [edgeThenFilter_eq, he]
  refine acts_foldl (fun x u h => ?_) ts (.choose _ .refl)
  cases x with
  | mk d second =>
    cases second with
    | false => exact acts_edgeTurn level stamp h
    | true => exact acts_moveDeadline h

/-- What such acts leave. -/
theorem acts_rest (h : s.Acts t) :
    t.device = s.device ∧ t.time = s.time ∧ t.patterns = s.patterns ∧ t.lines = s.lines ∧ t.link = s.link := by
  induction h with
  | refl => exact ⟨rfl, rfl, rfl, rfl, rfl⟩
  | put c x _ ih => exact ih
  | offer now src body _ ih => exact ih
  | claims new _ ih => exact ih
  | choose n _ ih => exact ih

end Sys2Proof.Machine

/-! The state with every held expiry not passed and every run tied to the levels of its line, block by block. -/

namespace Sys2Proof.Machine

/-- What `LineLaw` and `ExpiryLaw` ask of a line. -/
structure Line.Timely (x : Line) (device : DeviceState) (now : Time) : Prop where
  range : x.filter ≤ 1023
  positive : x.runStart.isSome → 0 < x.filter
  tied : device = .running → (x.runStart.isSome ↔ x.raw ≠ x.filtered)
  quiet : device ≠ .running → x.runStart = none ∧ x.sampled = false
  sample : x.runStart = some now → x.sampled = true
  held : ∀ start, x.runStart = some start → elapsed now start ≤ x.filter

/-- What `ExpiryLaw` asks of an output. -/
def Generator.Timely (g : Generator) (now : Time) : Prop := heldWithin now g.frameStart (frameLength g.rate)

/-- What `ExpiryLaw` asks of the link. -/
structure Link.Timely (k : Link) (now : Time) : Prop where
  gap : ∀ due, k.receiver.gap = some due → ahead now due 2001
  silence : ∀ due, k.source = .watching due → ahead now due (k.timeout * 1000)

/-- The laws of the lines and of the expiries together. -/
structure State.Timely (s : State) : Prop where
  lines : ∀ l : Fin 8, s.lines[l].Timely s.device s.time
  deadlines : s.DeadlineLaw
  frames : ∀ o : Fin 6, s.outputs[o].Timely s.time
  link : s.link.Timely s.time

variable {s t : State} {c : Fin 8}

theorem timely_iff : s.Timely ↔ s.LineLaw ∧ s.DeadlineLaw ∧ s.ExpiryLaw := by
  constructor
  · intro h
    refine ⟨fun l => ?_, h.deadlines, fun l => ?_, h.frames, ?_, ?_⟩
    · obtain ⟨hrange, hpositive, htied, hquiet, hsample, -⟩ := h.lines l
      exact ⟨hrange, hpositive, htied, hquiet, hsample⟩
    · exact (heldWithin_iff _).2 (h.lines l).held
    · split
      · next due hgap => exact h.link.gap due hgap
      · trivial
    · split
      · next due hsource => exact h.link.silence due hsource
      · trivial
  · rintro ⟨hlines, hdeadlines, hruns, hframes, hgap, hsilence⟩
    refine ⟨fun l => ?_, hdeadlines, hframes, fun due h => ?_, fun due h => ?_⟩
    · obtain ⟨hrange, hpositive, htied, hquiet, hsample⟩ := hlines l
      exact ⟨hrange, hpositive, htied, hquiet, hsample, (heldWithin_iff _).1 (hruns l)⟩
    · rw [h] at hgap; exact hgap
    · rw [h] at hsilence; exact hsilence

theorem timely_of_lawful (h : s.Lawful) : s.Timely := timely_iff.2 ⟨h.lines, h.deadlines, h.expiries⟩

/-! Outputs -/

/-- A drive applied now begins its frame now, or holds none. -/
theorem frame_apply (g : Generator) (now : Time) (d : Drive) : (g.apply now d).Timely now := by
  refine (heldWithin_iff _).2 fun start h => ?_
  unfold Generator.apply at h
  simp only at h
  split at h
  · cases h
    rw [elapsed_self]
    exact Nat.zero_le _
  · cases h

theorem frames_setClaims (new : Vector (List Claim) 6) (h : ∀ o : Fin 6, s.outputs[o].Timely s.time) (o : Fin 6) :
    (s.setClaims new).outputs[o].Timely s.time := by
  rw [output_setClaims]
  split
  · exact frame_apply _ _ _
  · exact h o

theorem frames_acts (h : s.Acts t) (hs : ∀ o : Fin 6, s.outputs[o].Timely s.time) (o : Fin 6) :
    t.outputs[o].Timely s.time := by
  induction h generalizing o with
  | refl => exact hs o
  | put c x _ ih => exact ih o
  | offer now src body _ ih => exact ih o
  | @claims u new hu ih =>
    obtain ⟨-, htime, -⟩ := acts_rest hu
    rw [← htime] at ih ⊢
    exact frames_setClaims new ih o
  | choose n _ ih => exact ih o

/-! Channels -/

/-- The channels act: their own expiries are all that is left to show. -/
theorem timely_of_acts (h : s.Acts t) (hs : s.Timely) (ht : t.DeadlineLaw) : t.Timely := by
  obtain ⟨hdevice, htime, -, hlines, hlink⟩ := acts_rest h
  refine ⟨fun l => ?_, ht, fun o => ?_, ?_⟩
  · rw [hlines, hdevice, htime]; exact hs.lines l
  · rw [htime]; exact frames_acts h hs.frames o
  · rw [hlink, htime]; exact hs.link

theorem deadlineLawAt_of_eq (h : s.DeadlineLawAt c) (htime : t.time = s.time) (hpatterns : t.patterns = s.patterns)
    (hlines : t.lines = s.lines) (hc : t.channels[c] = s.channels[c]) : t.DeadlineLawAt c := by
  rw [deadlineLawAt_iff] at h ⊢
  rw [htime]
  exact expiryWith_congr h htime (fun _ _ => by rw [hpatterns]) (fun _ _ => by rw [hlines]) (by rw [hc]) (by rw [hc])

/-- One channel's turn: its own expiry is all that is left to show. -/
theorem timely_of_turn (h : s.Acts t) (hturn : s.TurnOf c t) (hs : s.Timely) (hc : t.DeadlineLawAt c) : t.Timely := by
  refine timely_of_acts h hs fun d => ?_
  by_cases hd : c = d
  · subst hd; exact hc
  · exact deadlineLawAt_of_eq (hs.deadlines d) hturn.time hturn.patterns hturn.lines (hturn.others d hd)

theorem deadlineLawAt_of_quiet
    (h : s.channels[c].state = .idle ∨ s.channels[c].state = .paused ∨ s.channels[c].state = .tripped) :
    s.DeadlineLawAt c := deadlineLawAt_iff.2 (.quiet h)

/-- A channel's new record, without an expiry. -/
theorem timely_putChannel_quiet {x : Channel} (hs : s.Timely)
    (h : x.state = .idle ∨ x.state = .paused ∨ x.state = .tripped) : (s.putChannel c x).Timely :=
  timely_of_turn (.put c x .refl) (turn_putChannel s c x) hs
    (deadlineLawAt_of_quiet (by rw [channels_get_putChannel_self]; exact h))

theorem timely_handleDeviation (dev : Deviation) (hs : s.Timely) : (s.handleDeviation c dev).Timely :=
  timely_of_turn (acts_handleDeviation dev .refl) (turn_handleDeviation s c dev) hs
    (deadlineLawAt_iff.2 (expiryWith_handleDeviation s c dev))

/-- A channel enters SEEKING (R37). -/
theorem deadlineLawAt_seek (s : State) (c : Fin 8) : (s.seek c).DeadlineLawAt c := by
  rw [deadlineLawAt_iff]
  refine expiryWith_of_seeking (u := s) rfl ?_
  rw [channel_seek]

theorem timely_seek (hs : s.Timely) : (s.seek c).Timely :=
  timely_of_turn (.put c _ .refl) (turn_seek s c) hs (deadlineLawAt_seek s c)

theorem timely_armChannel (hs : s.Timely) : (s.armChannel c).Timely :=
  timely_of_turn (.put c _ (.put c _ .refl)) (turn_armChannel s c) hs (deadlineLawAt_seek _ c)

theorem timely_deliverDeadline (hs : s.Timely) : (s.deliverDeadline c).Timely := by
  refine timely_of_turn (acts_deliverDeadline .refl) (turn_deliverDeadline s c) hs (deadlineLawAt_deliverDeadline ?_)
  exact expiryWith_mono (deadlineLawAt_iff.1 (hs.deadlines c)) fun _ _ _ h => placed_of_notPassed h

/-- An edge accepted less than half the wrap after its stamp reaches its channels (R23). -/
theorem timely_deliverEdge (l : Fin 8) (level : Level) {stamp : Time} (hstamp : elapsed s.time stamp < 2 ^ 31)
    (hs : s.Timely) : (s.deliverEdge l level stamp).Timely := by
  have hacts := acts_deliverEdge s l level stamp
  obtain ⟨-, htime, hpatterns, hlines, -⟩ := acts_rest hacts
  refine timely_of_acts hacts hs fun c => ?_
  cases hn : s.namesLine l c with
  | false =>
    exact deadlineLawAt_of_eq (hs.deadlines c) htime hpatterns hlines
      ((handedTo_deliverEdge s l level stamp).others c (not_mem_channelsOf hn))
  | true =>
    have hturn := turn_edgeToChannel s c level stamp
    exact deadlineLawAt_of_eq (deadlineLawAt_edgeToChannel level hstamp (hs.deadlines c)) (htime.trans hturn.time.symm)
      (hpatterns.trans hturn.patterns.symm) (hlines.trans hturn.lines.symm) (channel_deliverEdge level stamp hn)

end Sys2Proof.Machine

/-! The lines: samples, accepted edges and filter times keep the timing laws (R19 to R27). -/

namespace Sys2Proof.Machine

variable {s t : State} {l : Fin 8} {x : Line} {device : DeviceState} {now : Time}

/-- There are two levels: what is not LOW is HIGH, and the other way round. -/
theorem level_eq_of_ne {a b c : Level} (hab : a ≠ b) (hcb : c ≠ b) : a = c := by
  have high {x : Level} (h : x ≠ .low) : x = .high := by cases x with | low => exact absurd rfl h | high => rfl
  have low {x : Level} (h : x ≠ .high) : x = .low := by cases x with | low => rfl | high => exact absurd rfl h
  cases b with
  | low => exact (high hab).trans (high hcb).symm
  | high => exact (low hab).trans (low hcb).symm

/-- A line without a run. -/
theorem lineTimely_of_no_run (hrange : x.filter ≤ 1023) (hrun : x.runStart = none)
    (htied : device = .running → x.raw = x.filtered) (hquiet : device ≠ .running → x.sampled = false) :
    x.Timely device now where
  range := hrange
  positive h := by rw [hrun] at h; cases h
  tied h := by simp [hrun, htied h]
  quiet h := ⟨hrun, hquiet h⟩
  sample h := by rw [hrun] at h; cases h
  held start h := by rw [hrun] at h; cases h

theorem lineTimely_accept (h : x.Timely device now) : x.accept.Timely device now :=
  lineTimely_of_no_run h.range rfl (fun _ => rfl) fun hd => (h.quiet hd).2

theorem lineTimely_putLine (hs : ∀ j : Fin 8, s.lines[j].Timely device now) (hx : x.Timely device now) (j : Fin 8) :
    (s.putLine l x).lines[j].Timely device now := by
  by_cases hj : l = j
  · subst hj; rw [lines_get_putLine_self]; exact hx
  · rw [lines_get_putLine_ne s l j x hj]; exact hs j

theorem filter_putLine {y : Line} (h : x.filter = y.filter) (j : Fin 8) :
    (s.putLine l x).lines[j].filter = (s.putLine l y).lines[j].filter := by
  by_cases hj : l = j
  · subst hj; rw [lines_get_putLine_self, lines_get_putLine_self]; exact h
  · rw [lines_get_putLine_ne s l j x hj, lines_get_putLine_ne s l j y hj]

/-- A new record for a line, with its filter time. -/
theorem timely_putLine (hs : s.Timely) (hx : x.Timely s.device s.time) (hf : x.filter = s.lines[l].filter) :
    (s.putLine l x).Timely where
  lines := lineTimely_putLine hs.lines hx
  deadlines c := by
    have h := deadlineLawAt_iff.1 (hs.deadlines c)
    refine deadlineLawAt_iff.2 (expiryWith_congr h rfl (fun _ _ => rfl) (fun cfg _ => ?_) rfl rfl)
    by_cases hj : l = cfg.line
    · subst hj; rw [lines_get_putLine_self]; exact hf
    · rw [lines_get_putLine_ne s l cfg.line x hj]
  frames := hs.frames
  link := hs.link

/-- A line accepts an edge whose stamp lies less than half the wrap in the past. -/
theorem timely_acceptEdge {stamp : Time} (hs : s.Timely) (hstamp : elapsed s.time stamp < 2 ^ 31) :
    (s.acceptEdge l stamp).Timely :=
  timely_deliverEdge (s := s.putLine l s.lines[l].accept) l _ hstamp
    (timely_putLine hs (lineTimely_accept (hs.lines l)) rfl)

theorem timely_rawChange {level : Level} (hs : s.Timely) (h : exec (.rawChange l level) s = .next t) : t.Timely := by
  have hline := hs.lines l
  by_cases hsample : s.device = .running ∧ s.lines[l].sampled = false
  · obtain ⟨hd, hsampled⟩ := hsample
    by_cases hlevel : level = s.lines[l].raw
    · rw [rawChange_same hd hsampled hlevel] at h
      obtain rfl := Host.Outcome.next.inj h
      exact timely_putLine hs ⟨hline.range, hline.positive, hline.tied, fun hn => absurd hd hn, fun _ => rfl, hline.held⟩ rfl
    · rw [rawChange_differs hd hsampled hlevel] at h
      obtain rfl := Host.Outcome.next.inj h
      have htied := hline.tied hd
      split
      · next start hrun =>
        have hne : s.lines[l].filtered ≠ s.lines[l].raw := (htied.1 (by rw [hrun]; rfl)).symm
        exact timely_putLine hs
          (lineTimely_of_no_run hline.range rfl (fun _ => level_eq_of_ne hlevel hne) fun hn => absurd hd hn) rfl
      · next hrun =>
        have hsettled : s.lines[l].raw = s.lines[l].filtered := by
          by_contra hne
          have := htied.2 hne
          rw [hrun] at this
          cases this
        split
        · rw [acceptEdge_putLine]
          refine timely_deliverEdge (s := s.putLine l _) l _ (by show elapsed s.time s.time < _; rw [elapsed_self]; decide) ?_
          exact timely_putLine hs
            (lineTimely_of_no_run hline.range rfl (fun _ => rfl) fun hn => absurd hd hn) rfl
        · next hfilter =>
          refine timely_putLine hs ⟨hline.range, fun _ => Nat.pos_of_ne_zero hfilter, fun _ => ?_, fun hn => absurd hd hn,
            fun _ => rfl, fun start hstart => ?_⟩ rfl
          · exact ⟨fun _ => by rw [← hsettled]; exact hlevel, fun _ => rfl⟩
          · cases hstart
            rw [elapsed_self]
            exact Nat.zero_le _
  · rw [rawChange_unsampled hsample] at h
    obtain rfl := Host.Outcome.next.inj h
    exact timely_putLine hs ⟨hline.range, hline.positive, hline.tied, hline.quiet, hline.sample, hline.held⟩ rfl

/-- A run lasts at most F, which is far below half the wrap. -/
theorem elapsed_run_lt {start : Time} (hs : s.Timely) (hrun : s.lines[l].runStart = some start) :
    elapsed s.time start < 2 ^ 31 := by
  have hheld := (hs.lines l).held start hrun
  have hrange := (hs.lines l).range
  omega

theorem timely_qualificationExpiry (hs : s.Timely) (h : exec (.qualificationExpiry l) s = .next t) : t.Timely := by
  cases hrun : s.lines[l].runStart with
  | none =>
    obtain rfl := Host.Outcome.next.inj h
    rw [hrun]
    exact hs
  | some start =>
    rw [qualificationExpiry_of_run hrun] at h
    obtain rfl := Host.Outcome.next.inj h
    split
    · exact timely_acceptEdge hs (elapsed_run_lt hs hrun)
    · exact hs

/-! SET_LINE -/

/-- The step that a lawful channel is in began less than half the wrap ago; the filter times of another state do not matter. -/
theorem begun_of_deadlineLaw {c : Fin 8} (htables : s.TablesLawful) (hs : s.Timely) (htime : t.time = s.time)
    (hpatterns : t.patterns = s.patterns) (hc : t.channels[c] = s.channels[c]) : t.ExpiryWith (begun t.time) c := by
  cases deadlineLawAt_iff.1 (hs.deadlines c) with
  | @tracking k start due cfg p st state config pattern step held =>
    refine .tracking (by rw [hc]; exact state) (by rw [hc]; exact config) (by rw [hpatterns]; exact pattern) step ?_
    obtain ⟨⟨hpat, -⟩, -⟩ := htables
    obtain ⟨-, -, -, hsteps⟩ := hpat cfg.pattern p pattern
    have hmax := (hsteps st (List.mem_of_getElem? step)).2
    have hrange := (hs.lines cfg.line).range
    obtain ⟨rfl, hahead⟩ := held
    have hle := elapsed_le_of_ahead (by omega) hahead
    show elapsed t.time start < 2 ^ 31
    rw [htime]
    omega
  | seeking state config held =>
    exact .seeking (by rw [hc]; exact state) (by rw [hc]; exact config) (by rw [htime]; exact held)
  | quiet state => exact .quiet (by rw [hc]; exact state)
  | unconfigured config => exact .unconfigured (by rw [hc]; exact config)

theorem deadlineLawAt_handOnFilter {c : Fin 8} (hn : s.namesLine l c = true) (h : s.ExpiryWith (begun s.time) c) :
    (s.handOnFilter l).DeadlineLawAt c := by
  obtain ⟨-, htime, hpatterns, hlines, -⟩ := acts_rest (acts_handOnFilter s l)
  have hturn := turn_moveDeadline s c
  exact deadlineLawAt_of_eq (deadlineLawAt_moveDeadline h) (htime.trans hturn.time.symm)
    (hpatterns.trans hturn.patterns.symm) (hlines.trans hturn.lines.symm) (channel_handOnFilter hn)

theorem deadlineLawAt_edgeThenFilter {c : Fin 8} (level : Level) {stamp : Time} (hstamp : elapsed s.time stamp < 2 ^ 31)
    (hn : s.namesLine l c = true) (h : s.ExpiryWith (begun s.time) c) :
    (s.edgeThenFilter l level stamp).DeadlineLawAt c := by
  obtain ⟨-, htime, hpatterns, hlines, -⟩ := acts_rest (acts_edgeThenFilter s l level stamp)
  have hedge := turn_edgeTurn s c level stamp
  have hturn := turn_trans hedge (turn_moveDeadline (s.edgeTurn c level stamp) c)
  have hbegun : (s.edgeTurn c level stamp).ExpiryWith (begun (s.edgeTurn c level stamp).time) c := by
    rw [hedge.time]
    exact expiryWith_edgeTurn (fun _ => hstamp) level h
  exact deadlineLawAt_of_eq (deadlineLawAt_moveDeadline hbegun) (htime.trans hturn.time.symm)
    (hpatterns.trans hturn.patterns.symm) (hlines.trans hturn.lines.symm) (channel_edgeThenFilter level stamp hn)

/-- Each channel of the line has its deadline moved in its last turn; the others keep theirs. -/
theorem deadlineLaw_replaceFilter (f : Nat) (htables : s.TablesLawful) (hs : s.Timely) : (s.replaceFilter l f).DeadlineLaw := by
  intro c
  cases hn : s.namesLine l c with
  | false =>
    have hrest := replaceFilter_rest s l f
    have htime : (s.replaceFilter l f).time = s.time := by rw [hrest]
    have hc := (handedTo_replaceFilter s l f).others c (not_mem_channelsOf hn)
    have h := deadlineLawAt_iff.1 (hs.deadlines c)
    rw [deadlineLawAt_iff, htime]
    refine expiryWith_congr h htime (fun _ _ => by rw [hrest]) (fun cfg hcfg => ?_) (by rw [hc]; rfl) (by rw [hc]; rfl)
    have hl : l ≠ cfg.line := by
      rintro rfl
      unfold State.namesLine at hn
      rw [hcfg] at hn
      simp at hn
    rw [lines_replaceFilter]
    exact congrArg Line.filter (lines_get_putLine_ne s l cfg.line _ hl)
  | true =>
    cases hlasted : s.lines[l].lasted s.time f with
    | false =>
      rw [replaceFilter_handOn hlasted]
      exact deadlineLawAt_handOnFilter hn (begun_of_deadlineLaw htables hs rfl rfl rfl)
    | true =>
      obtain ⟨start, hrun, hf⟩ := lasted_iff.1 hlasted
      rw [replaceFilter_accepted hrun hf]
      have hstamp := elapsed_run_lt hs hrun
      exact deadlineLawAt_edgeThenFilter _ hstamp hn (begun_of_deadlineLaw htables hs rfl rfl rfl)

theorem acts_replaceFilter (s : State) (l : Fin 8) (f : Nat) :
    (s.putLine l (s.lines[l].refiltered s.time f false)).Acts (s.replaceFilter l f) := by
  unfold Line.refiltered
  by_cases h : s.lines[l].lasted s.time f = true
  · obtain ⟨start, hrun, hf⟩ := lasted_iff.1 h
    rw [replaceFilter_accepted hrun hf, h]
    exact acts_edgeThenFilter _ l _ start
  · rw [Bool.not_eq_true] at h
    rw [replaceFilter_handOn h, h]
    exact acts_handOnFilter _ l

/-- A run that has not lasted the new filter time goes on, within it; one that has lasted it is over. -/
theorem lineTimely_refiltered (f : Nat) (clear : Bool) (hf : f ≤ 1023) (hd : device = .running) (hx : x.Timely device now) :
    (x.refiltered now f clear).Timely device now := by
  cases hlasted : x.lasted now f with
  | true =>
    refine lineTimely_of_no_run hf ?_ (fun _ => ?_) fun hn => absurd hd hn
    · unfold Line.refiltered; rw [hlasted]; rfl
    · unfold Line.refiltered; rw [hlasted]; rfl
  | false =>
    have hlonger (start : Time) (hrun : x.runStart = some start) : elapsed now start < f := by
      unfold Line.lasted at hlasted
      rw [hrun] at hlasted
      exact Nat.lt_of_not_le (of_decide_eq_false hlasted)
    unfold Line.refiltered
    rw [hlasted]
    refine ⟨hf, fun hrun => ?_, hx.tied, fun hn => absurd hd hn, hx.sample, fun start hrun => ?_⟩
    · obtain ⟨start, hrun⟩ := Option.isSome_iff_exists.1 hrun
      exact Nat.zero_lt_of_lt (hlonger start hrun)
    · exact Nat.le_of_lt (hlonger start hrun)

/-- An accepted SET_LINE (R25 to R27). -/
theorem timely_setFilter (f : Nat) (clear : Bool) (hf : f ≤ 1023) (hd : s.device = .running) (htables : s.TablesLawful)
    (hs : s.Timely) : (s.setFilter l f clear).1.Timely := by
  have hrest := replaceFilter_rest s l f
  have hdevice : (s.replaceFilter l f).device = s.device := by rw [hrest]
  have htime : (s.replaceFilter l f).time = s.time := by rw [hrest]
  have hlink : (s.replaceFilter l f).link = s.link := by rw [hrest]
  have hlines := lines_replaceFilter s l f
  rw [setFilter_eq]
  constructor
  case lines =>
    rw [show (State.device _) = s.device from hdevice, show (State.time _) = s.time from htime]
    exact lineTimely_putLine hs.lines (lineTimely_refiltered f clear hf hd (hs.lines l))
  case deadlines =>
    intro c
    have h := deadlineLawAt_iff.1 (deadlineLaw_replaceFilter (l := l) f htables hs c)
    refine deadlineLawAt_iff.2 (expiryWith_congr h rfl (fun _ _ => rfl) (fun cfg _ => ?_) rfl rfl)
    rw [hlines]
    exact filter_putLine (x := s.lines[l].refiltered s.time f clear) (y := s.lines[l].refiltered s.time f false) rfl cfg.line
  case frames =>
    show ∀ o : Fin 6, (s.replaceFilter l f).outputs[o].Timely (s.replaceFilter l f).time
    rw [htime]
    exact frames_acts (s := s.putLine l (s.lines[l].refiltered s.time f false)) (acts_replaceFilter s l f) hs.frames
  case link =>
    show (s.replaceFilter l f).link.Timely (s.replaceFilter l f).time
    rw [hlink, htime]
    exact hs.link

end Sys2Proof.Machine

/-! The link: what it holds of the gap and the silence expiry (R140, R147). -/

namespace Sys2Proof.Machine

variable {k : Link} {now : Time}

theorem linkTimely_congr {j : Link} (h : k.Timely now) (hr : j.receiver = k.receiver) (hs : j.source = k.source)
    (ht : j.timeout = k.timeout) : j.Timely now :=
  ⟨by rw [hr]; exact h.gap, by rw [hs, ht]; exact h.silence⟩

/-- A receiver whose gap expiry, if any, is placed now. -/
theorem linkTimely_receiver {r : Receiver} (h : k.Timely now) (hr : ∀ due, r.gap = some due → due = after now 2001) :
    ({ k with receiver := r } : Link).Timely now :=
  ⟨fun due hdue => by rw [hr due hdue]; exact ahead_after now 2001, h.silence⟩

/-- LINK watching from now, or not watching. -/
theorem linkTimely_source {x : LinkState} {timeout : Nat} (h : k.Timely now)
    (hx : ∀ due, x = .watching due → due = after now (timeout * 1000)) :
    ({ k with source := x, timeout } : Link).Timely now :=
  ⟨h.gap, fun due hdue => by rw [hx due hdue]; exact ahead_after now _⟩

theorem linkTimely_push (r : Reply) (h : k.Timely now) : (k.push now r).Timely now := linkTimely_congr h rfl rfl rfl

theorem linkTimely_restart (h : k.Timely now) : (k.restart now).Timely now := by
  unfold Link.restart
  split
  · exact linkTimely_source h fun due hdue => by cases hdue; rfl
  · exact h

theorem linkTimely_enqueue (f : Frame) (h : k.Timely now) : (k.enqueue now f).Timely now := by
  unfold Link.enqueue
  split
  · exact linkTimely_congr h rfl rfl rfl
  · simp only
    split
    · exact linkTimely_congr h rfl rfl rfl
    · exact linkTimely_congr h rfl rfl rfl

theorem linkTimely_goodFrame (f : Frame) (h : k.Timely now) : (k.goodFrame now f).Timely now :=
  linkTimely_enqueue f (linkTimely_restart h)

theorem linkTimely_abandon (h : k.Timely now) : k.abandon.Timely now :=
  linkTimely_congr (linkTimely_receiver (r := .hunting) h nofun) rfl rfl rfl

theorem linkTimely_complete (covered : List Byte) (hi lo : Byte) (h : k.Timely now) :
    (k.complete now covered hi lo).Timely now := by
  unfold Link.complete
  split
  · split
    · exact linkTimely_goodFrame _ (linkTimely_receiver h nofun)
    · exact linkTimely_abandon h
  · exact linkTimely_abandon h

/-- A byte places the gap expiry, or ends the frame (R139, R140). -/
theorem linkTimely_receive (b : Byte) (h : k.Timely now) : (k.receive now b).Timely now := by
  have hplaced {r : Receiver} (hr : r.gap = some (after now 2001)) : ({ k with receiver := r } : Link).Timely now :=
    linkTimely_receiver h fun due hdue => Option.some.inj (hdue.symm.trans hr)
  unfold Link.receive
  simp only
  split
  · split
    · exact hplaced rfl
    · exact h
  · split
    · exact hplaced rfl
    · exact linkTimely_abandon h
  · split
    · exact hplaced rfl
    · exact hplaced rfl
  · exact linkTimely_complete _ _ _ h
  · exact hplaced rfl

theorem linkTimely_setTimeout (t : Nat) (h : k.Timely now) : (k.setTimeout now t).Timely now := by
  refine linkTimely_source h fun due hdue => ?_
  split at hdue
  · cases hdue
  · split at hdue
    · cases hdue
    · cases hdue; rfl

end Sys2Proof.Machine

/-! Requests, events and time: every step keeps the timing laws (R18, R19, R43, R49). -/

namespace Sys2Proof.Machine

variable {s t : State} {c : Fin 8}

/-- A state that differs in nothing that the timing laws read. -/
theorem timely_congr (hs : s.Timely) (hdevice : t.device = s.device) (htime : t.time = s.time)
    (hpatterns : t.patterns = s.patterns) (hlines : t.lines = s.lines) (hchannels : t.channels = s.channels)
    (houtputs : t.outputs = s.outputs) (hlink : t.link = s.link) : t.Timely where
  lines := by rw [hlines, hdevice, htime]; exact hs.lines
  deadlines c := deadlineLawAt_of_eq (hs.deadlines c) htime hpatterns hlines (by rw [hchannels])
  frames := by rw [houtputs, htime]; exact hs.frames
  link := by rw [hlink, htime]; exact hs.link

theorem timely_withLink {k : Link} (hs : s.Timely) (hk : k.Timely s.time) : ({ s with link := k } : State).Timely :=
  ⟨hs.lines, hs.deadlines, hs.frames, hk⟩

/-- A new record for an output. -/
theorem timely_putOutput {o : Fin 6} {g : Generator} (hs : s.Timely) (hg : g.Timely s.time) : (s.putOutput o g).Timely where
  lines := hs.lines
  deadlines := hs.deadlines
  frames j := by
    by_cases hj : o = j
    · subst hj; rw [outputs_get_putOutput_self]; exact hg
    · rw [outputs_get_putOutput_ne s o j g hj]; exact hs.frames j
  link := hs.link

theorem timely_setClaims (new : Vector (List Claim) 6) (hs : s.Timely) : (s.setClaims new).Timely :=
  timely_of_acts (.claims new .refl) hs hs.deadlines

/-! Requests -/

/-- The effect of an answer keeps the timing laws; a refusal has no effect. -/
def Answer.Timely : Answer → Prop
  | .refuse _ => True
  | .ok _ t => t.Timely
  | .okThenReset t => t.Timely

theorem timely_answer (tag : Byte) {a : Answer} (hs : s.Timely) (h : a.Timely) : (s.answer tag a).Timely := by
  cases a with
  | refuse status => exact timely_withLink hs (linkTimely_push _ hs.link)
  | ok data t => exact timely_withLink (s := t) h (linkTimely_push _ h.link)
  | okThenReset t => exact timely_withLink (s := t) h (linkTimely_push _ h.link)

/-- A request keeps the timing laws when what the executor carries out keeps them. -/
theorem timely_request (f : Frame) {carryOut : State → Answer} (htables : s.TablesLawful) (hs : s.Timely)
    (h : ∀ u : State, u.TablesLawful → u.Timely → (carryOut u).Timely) : (s.request f carryOut).Timely := by
  obtain ⟨-, he⟩ | ⟨-, l, hl, hcase⟩ := request_cases s f carryOut
  · rw [he]; exact hs
  · have hlink : l.Timely s.time := by
      obtain ⟨-, rfl⟩ | ⟨-, rfl⟩ := hl
      · exact hs.link
      · exact linkTimely_goodFrame f hs.link
    obtain he | ⟨rest, -, -, he⟩ := hcase
    · rw [he]; exact timely_withLink hs hlink
    · have htaken : ({ s with link := { l with inbox := rest } } : State).Timely :=
        timely_withLink hs (linkTimely_congr hlink rfl rfl rfl)
      rw [he]
      exact timely_answer f.tag htaken (h _ (tablesLawful_congr htables rfl rfl) htaken)

theorem timely_whenRunning {a : Answer} (h : s.device = .running → a.Timely) : (whenRunning s a).Timely := by
  unfold whenRunning
  split
  · next hd => exact h hd
  · trivial

theorem timely_noParams (params : List Byte) {a : Answer} (h : a.Timely) : (noParams params a).Timely := by
  unfold noParams
  split
  · exact h
  · trivial

theorem timely_oneParam {α : Type} (params : List Byte) {parse : Byte → Option α} {k : α → Answer}
    (h : ∀ x, (k x).Timely) : (oneParam params s parse k).Timely := by
  unfold oneParam
  split
  · split
    · exact timely_whenRunning fun _ => h _
    · trivial
  · trivial

/-! Requests of the channels and the sources -/

theorem timely_configureChannelAnswer (params : List Byte) (hs : s.Timely) : (configureChannelAnswer params s).Timely := by
  unfold configureChannelAnswer
  split
  · split
    · next c cfg _ _ =>
      refine timely_whenRunning fun _ => ?_
      split
      · trivial
      · next hidle =>
        have hi : s.channels[c].state = .idle := by simpa [isIdle_iff] using hidle
        split
        · trivial
        · exact timely_putChannel_quiet hs (.inl hi)
    · trivial
  · trivial

theorem timely_clearChannelAnswer (params : List Byte) (hs : s.Timely) : (clearChannelAnswer params s).Timely := by
  refine timely_oneParam params fun c => ?_
  split
  · trivial
  · next hidle =>
    have hi : s.channels[c].state = .idle := by simpa [isIdle_iff] using hidle
    split
    · trivial
    · exact timely_putChannel_quiet hs (.inl hi)

theorem timely_armAnswer (params : List Byte) (hs : s.Timely) : (armAnswer params s).Timely := by
  refine timely_oneParam params fun c => ?_
  split
  · trivial
  · split
    · trivial
    · split
      · trivial
      · exact timely_armChannel hs

theorem timely_disarm (c : Fin 8) (hs : s.Timely) : (s.disarm c).Timely := by
  unfold State.disarm
  split
  · exact hs
  · have hput : (s.putChannel c { s.channels[c] with state := .idle, strikes := 0, goodRun := 0 }).Timely :=
      timely_putChannel_quiet hs (.inl rfl)
    simp only
    split
    · exact timely_setClaims _ hput
    · exact hput

theorem timely_pauseAnswer (params : List Byte) (hs : s.Timely) : (pauseAnswer params s).Timely := by
  refine timely_oneParam params fun c => ?_
  split
  · exact timely_putChannel_quiet hs (.inr (.inl rfl))
  · trivial

theorem timely_resumeAnswer (params : List Byte) (hs : s.Timely) : (resumeAnswer params s).Timely := by
  refine timely_oneParam params fun c => ?_
  split
  · exact timely_seek hs
  · trivial

theorem timely_injectAnswer (params : List Byte) (hs : s.Timely) : (injectAnswer params s).Timely := by
  refine timely_oneParam params fun c => ?_
  split
  · exact timely_handleDeviation _ hs
  · trivial

/-- A record with the state and the configuration of the old one. -/
theorem timely_putChannel_same {x : Channel} (hs : s.Timely) (hstate : x.state = s.channels[c].state)
    (hconfig : x.config = s.channels[c].config) : (s.putChannel c x).Timely :=
  timely_of_turn (.put c x .refl) (turn_putChannel s c x) hs
    (deadlineLawAt_iff.2 (expiryWith_putChannel (deadlineLawAt_iff.1 (hs.deadlines c)) hstate hconfig))

theorem timely_clearObservedAnswer (params : List Byte) (hs : s.Timely) : (clearObservedAnswer params s).Timely := by
  refine timely_oneParam params fun c => ?_
  split
  · trivial
  · exact timely_putChannel_same hs rfl rfl

theorem timely_rearmAnswer (params : List Byte) (hs : s.Timely) : (rearmAnswer params s).Timely := by
  refine timely_oneParam params fun src => ?_
  split
  · trivial
  · split
    · trivial
    · cases src with
      | channel c => exact timely_seek (timely_setClaims _ (timely_putChannel_same hs rfl rfl))
      | link =>
        refine timely_setClaims _ (timely_withLink hs (linkTimely_source hs.link fun due hdue => ?_))
        split at hdue
        · cases hdue
        · cases hdue; rfl

/-! Requests of the patterns, the lines, the link, the store and the outputs -/

/-- A channel whose record keeps its state keeps its expiry, when it is followed and its pattern is kept. -/
theorem timely_of_tablesKept (hs : s.Timely) (hk : s.TablesKept t) (hdevice : t.device = s.device) (htime : t.time = s.time)
    (hlines : t.lines = s.lines) (houtputs : t.outputs = s.outputs) (hlink : t.link = s.link)
    (hstate : ∀ c : Fin 8, t.channels[c].state = s.channels[c].state) : t.Timely where
  lines := by rw [hlines, hdevice, htime]; exact hs.lines
  deadlines c := by
    by_cases hidle : s.channels[c].state = .idle
    · exact deadlineLawAt_of_quiet (.inl ((hstate c).trans hidle))
    · obtain ⟨hconfig, hpattern⟩ := hk.followed c hidle (by rw [hstate c]; exact hidle)
      have h := deadlineLawAt_iff.1 (hs.deadlines c)
      rw [deadlineLawAt_iff, htime]
      exact expiryWith_congr h htime hpattern (fun _ _ => by rw [hlines]) (hstate c) hconfig
  frames := by rw [houtputs, htime]; exact hs.frames
  link := by rw [hlink, htime]; exact hs.link

theorem state_definePattern (s : State) (id : Fin 16) (p : Pattern) (c : Fin 8) :
    (s.definePattern id p).channels[c].state = s.channels[c].state := by
  rw [channel_definePattern]
  split <;> rfl

/-- A DEFINE_PATTERN is refused, or defines a pattern. -/
theorem definePatternAnswer_cases (params : List Byte) (s : State) :
    (∃ status, definePatternAnswer params s = .refuse status) ∨
      ∃ data id p, definePatternAnswer params s = .ok data (s.definePattern id p) := by
  unfold definePatternAnswer whenRunning
  split
  · split
    · exact .inl ⟨_, rfl⟩
    · split
      · split
        · split
          · split
            · exact .inl ⟨_, rfl⟩
            · split
              · exact .inl ⟨_, rfl⟩
              · exact .inr ⟨_, _, _, rfl⟩
          · exact .inl ⟨_, rfl⟩
        · exact .inl ⟨_, rfl⟩
      · exact .inl ⟨_, rfl⟩
  · exact .inl ⟨_, rfl⟩

theorem timely_definePatternAnswer (params : List Byte) (htables : s.TablesLawful) (hs : s.Timely) :
    (definePatternAnswer params s).Timely := by
  have hkept := kept_definePatternAnswer params htables
  obtain ⟨status, he⟩ | ⟨data, id, p, he⟩ := definePatternAnswer_cases params s
  · rw [he]; trivial
  · rw [he] at hkept ⊢
    have hrest := definePattern_rest s id p
    exact timely_of_tablesKept hs hkept (by rw [hrest]) (by rw [hrest]) (by rw [hrest]) (by rw [hrest]) (by rw [hrest])
      (state_definePattern s id p)

theorem timely_deletePatternAnswer (params : List Byte) (htables : s.TablesLawful) (hs : s.Timely) :
    (deletePatternAnswer params s).Timely := by
  refine timely_oneParam params fun id => ?_
  split
  · trivial
  · split
    · trivial
    · next hn =>
      exact timely_of_tablesKept hs (kept_deletePattern htables (by simpa using hn)) rfl rfl rfl rfl rfl fun _ => rfl

theorem timely_setLineAnswer (params : List Byte) (htables : s.TablesLawful) (hs : s.Timely) :
    (setLineAnswer params s).Timely := by
  unfold setLineAnswer
  split
  · split
    · split
      · next hf => exact timely_whenRunning fun hd => timely_setFilter _ _ hf hd htables hs
      · trivial
    · trivial
  · trivial

theorem timely_setLinkAnswer (params : List Byte) (hs : s.Timely) : (setLinkAnswer params s).Timely := by
  unfold setLinkAnswer
  split
  · split
    · exact timely_whenRunning fun _ => timely_withLink hs (linkTimely_setTimeout _ hs.link)
    · trivial
  · trivial

theorem timely_savePlanAnswer (params : List Byte) (hs : s.Timely) : (savePlanAnswer params s).Timely := by
  refine timely_noParams params (timely_whenRunning fun _ => ?_)
  split
  · trivial
  · split
    · trivial
    · exact timely_congr hs rfl rfl rfl rfl rfl rfl rfl

theorem timely_erasePlanAnswer (params : List Byte) (hs : s.Timely) : (erasePlanAnswer params s).Timely := by
  refine timely_noParams params (timely_whenRunning fun _ => ?_)
  split
  · trivial
  · exact timely_congr hs rfl rfl rfl rfl rfl rfl rfl

theorem timely_setReactionAnswer (params : List Byte) (hs : s.Timely) : (setReactionAnswer params s).Timely := by
  unfold setReactionAnswer
  split
  · split
    · refine timely_whenRunning fun _ => ?_
      split
      · trivial
      · split
        · trivial
        · exact timely_congr hs rfl rfl rfl rfl rfl rfl rfl
    · trivial
  · trivial

/-- A base change keeps the frame in progress, or applies a drive now (R98, R99). -/
theorem frame_setBase {g : Generator} {now : Time} (claimed : Bool) (base : Drive) (rate : Fin 5) (h : g.Timely now) :
    (g.setBase now claimed base rate).1.Timely now := by
  unfold Generator.setBase
  split
  · split
    · exact h
    · split
      · exact h
      · exact frame_apply _ _ _
  · split
    · exact frame_apply _ _ _
    · exact frame_apply _ _ _

theorem timely_setOutputAnswer (params : List Byte) (hs : s.Timely) : (setOutputAnswer params s).Timely := by
  unfold setOutputAnswer
  split
  · split
    · exact timely_whenRunning fun _ => timely_putOutput hs (frame_setBase _ _ _ (hs.frames _))
    · trivial
  · trivial

theorem timely_readPatternAnswer (params : List Byte) (hs : s.Timely) : (readPatternAnswer params s).Timely := by
  refine timely_oneParam params fun id => ?_
  split
  · trivial
  · exact hs

theorem timely_readObservedAnswer (params : List Byte) (hs : s.Timely) : (readObservedAnswer params s).Timely := by
  refine timely_oneParam params fun c => ?_
  split
  · trivial
  · exact hs

/-! Events -/

theorem timely_acquireExpiry (hs : s.Timely) (h : execAcquireExpiry c s = .next t) : t.Timely := by
  obtain rfl := Host.Outcome.next.inj h
  split
  · split
    · exact timely_handleDeviation _ hs
    · exact hs
  · exact hs

theorem frameLength_le (rate : Fin 5) : frameLength rate ≤ 4096 := by
  revert rate
  decide

/-- The next frame begins at the end of the frame before it, which is now (R95). -/
theorem frame_nextFrame {g : Generator} {now start : Time} (h : g.Timely now) (hstart : g.frameStart = some start)
    (hr : reached now (after start (frameLength g.rate)) = true) : (g.nextFrame start).Timely now := by
  have hlength := frameLength_le g.rate
  have hend := elapsed_end (by omega) ((heldWithin_iff _).1 h start hstart) hr
  refine (heldWithin_iff _).2 fun next hnext => ?_
  have hnow : next = after start (frameLength g.rate) := by
    unfold Generator.nextFrame Generator.apply at hnext
    simp only at hnext
    split at hnext
    · simp only at hnext
      split at hnext
      · exact (Option.some.inj hnext).symm
      · cases hnext
    · exact (Option.some.inj hnext).symm
  rw [hnow, hend]
  exact Nat.zero_le _

theorem timely_frameEndExpiry {o : Fin 6} (hs : s.Timely) (h : execFrameEndExpiry o s = .next t) : t.Timely := by
  obtain rfl := Host.Outcome.next.inj h
  split
  · next hstart =>
    split
    · next hr => exact timely_putOutput hs (frame_nextFrame (hs.frames o) hstart hr)
    · exact hs
  · exact hs

theorem timely_saveCompletion {matched : Bool} (hs : s.Timely) (h : execSaveCompletion matched s = .next t) : t.Timely := by
  obtain rfl := Host.Outcome.next.inj h
  split
  · split
    · exact hs
    · exact timely_congr hs rfl rfl rfl rfl rfl rfl rfl
  · exact hs

theorem timely_secondBankInvalidation (hs : s.Timely) (h : execSecondBankInvalidation s = .next t) : t.Timely := by
  obtain rfl := Host.Outcome.next.inj h
  split
  · split
    · exact hs
    · exact timely_congr hs rfl rfl rfl rfl rfl rfl rfl
  · exact hs

theorem timely_eraseCompletion (hs : s.Timely) (h : execEraseCompletion s = .next t) : t.Timely := by
  obtain rfl := Host.Outcome.next.inj h
  split
  · split
    · exact hs
    · exact timely_congr hs rfl rfl rfl rfl rfl rfl rfl
  · exact hs

theorem timely_byteArrival {b : Byte} (hs : s.Timely) (h : execByteArrival b s = .next t) : t.Timely := by
  obtain rfl := Host.Outcome.next.inj h
  split
  · exact hs
  · exact timely_withLink hs (linkTimely_receive b hs.link)

theorem timely_framingFault (hs : s.Timely) (h : execFramingFault s = .next t) : t.Timely := by
  obtain rfl := Host.Outcome.next.inj h
  split
  · exact hs
  · split
    · exact hs
    · exact timely_withLink hs (linkTimely_abandon hs.link)

theorem timely_gapExpiry (hs : s.Timely) (h : execGapExpiry s = .next t) : t.Timely := by
  obtain rfl := Host.Outcome.next.inj h
  split
  · split
    · exact timely_withLink hs (linkTimely_abandon hs.link)
    · exact hs
  · exact hs

/-- LINK trips and no longer watches (R148). -/
theorem timely_silenceExpiry (hs : s.Timely) (h : execSilenceExpiry s = .next t) : t.Timely := by
  obtain rfl := Host.Outcome.next.inj h
  split
  · split
    · exact timely_congr (timely_setClaims _ (timely_withLink hs (linkTimely_source (x := .tripped) hs.link nofun)))
        rfl rfl rfl rfl rfl rfl rfl
    · exact hs
  · exact hs

/-! Reset and the load -/

/-- A cleared part outside RUNNING holds no expiry; the banks do not matter. -/
theorem timely_of_cleared {pin : Fin 8 → Level} (h : t.Cleared pin) (hd : t.device ≠ .running) : t.Timely := by
  obtain ⟨htime, hplan, hpatterns, hlines, hchannels, hreactions, hclaims, houtputs, hqueue, -, hlink⟩ := h
  have hcleared : ({ t with store := State.reset.store } : State).Cleared pin :=
    ⟨htime, hplan, hpatterns, hlines, hchannels, hreactions, hclaims, houtputs, hqueue, rfl, hlink⟩
  exact timely_congr (timely_of_lawful (lawful_of_cleared hcleared hd storeLaw_reset)) rfl rfl rfl rfl rfl rfl rfl

/-- Outside RUNNING every channel is in IDLE (R54, R132). -/
theorem idle_of_quiet (hl : s.Lawful) (hd : s.device ≠ .running) (c : Fin 8) : s.channels[c].state = .idle := by
  obtain ⟨hchannels, -⟩ := hl.quiet hd
  obtain ⟨hidle, -⟩ := hchannels c
  exact hidle

/-- Outside RUNNING no line has a run, whatever its filter time. -/
theorem lineTimely_of_quiet {x : Line} {device : DeviceState} (hl : s.Lawful) (hd : s.device ≠ .running)
    (hdevice : device ≠ .running) (now : Time) (l : Fin 8) (hx : x = { s.lines[l] with filter := x.filter })
    (hf : x.filter ≤ 1023) : x.Timely device now := by
  obtain ⟨hrun, hsampled⟩ := ((timely_of_lawful hl).lines l).quiet hd
  exact lineTimely_of_no_run hf (by rw [hx]; exact hrun) (fun h => absurd h hdevice) fun _ => by rw [hx]; exact hsampled

/-- In RESET device time is 0 already, and no line has a run (R29, R132). -/
theorem timely_resetEnd (hl : s.Lawful) (h : execResetEnd s = .next t) : t.Timely := by
  have hs := timely_of_lawful hl
  obtain rfl := Host.Outcome.next.inj h
  split
  · next hd =>
    have hnot : s.device ≠ .running := by rw [hd]; nofun
    obtain ⟨-, htime, -⟩ := hl.reset hd
    refine ⟨fun l => lineTimely_of_quiet (device := .starting) hl hnot nofun _ l rfl (hs.lines l).range,
      fun c => deadlineLawAt_of_quiet (.inl (idle_of_quiet hl hnot c)), ?_, ?_⟩
    · have hframes := hs.frames
      rw [htime] at hframes
      exact hframes
    · have hlink := hs.link
      rw [htime] at hlink
      exact hlink
  · exact hs

/-- The end of an accepted RESET's reply begins and ends a reset; any other reply leaves the next one to be sent (R131, R144). -/
theorem timely_replySent (hs : s.Timely) (h : execReplySent s = .next t) : t.Timely := by
  obtain rfl := Host.Outcome.next.inj h
  split
  · split
    · split
      · exact timely_of_cleared (pin := fun l => s.lines[l].pin) (cleared_beginReset s .resetRequest) nofun
      · exact timely_withLink hs (linkTimely_congr hs.link rfl rfl rfl)
    · exact hs
  · exact hs

/-- In STARTING no frame runs (R104). -/
theorem frameStart_of_quiet (hl : s.Lawful) (hd : s.device ≠ .running) (o : Fin 6) : s.outputs[o].frameStart = none := by
  obtain ⟨-, hquiet, -⟩ := hl.quiet hd
  obtain ⟨-, happlied, -⟩ := hquiet o
  obtain ⟨hframe, -⟩ := hl.outputs o
  rw [happlied] at hframe
  simpa [Drive.isDuty] using hframe

/-- The plan may be written at any moment of STARTING (R135). -/
theorem timely_loadPlan (hl : s.Lawful) (hd : s.device = .starting) : (s.loadPlan s.store.selectPlan.1).Timely := by
  have hnot : s.device ≠ .running := by rw [hd]; nofun
  have hacc := accepted_selectPlan s.store
  generalize s.store.selectPlan.1 = img at hacc
  obtain ⟨-, -, -, -, -, -, hoff, -⟩ := hl.quiet hnot
  refine ⟨fun l => ?_, fun c => deadlineLawAt_of_quiet (.inl ?_), fun o => ?_, ⟨?_, fun due hdue => ?_⟩⟩
  · rw [lines_loadPlan]
    exact lineTimely_of_quiet hl hnot (by show s.device ≠ .running; exact hnot) _ l rfl ((accepted_outputs_filters hacc).2 l)
  · rw [channels_loadPlan]
    exact idle_of_quiet hl hnot c
  · obtain ⟨base, rate, -, -, hout⟩ := outputs_loadPlan s hacc o
    rw [hout]
    refine (heldWithin_iff _).2 fun start hstart => ?_
    rw [show (Generator.frameStart _) = none from frameStart_of_quiet hl hnot o] at hstart
    cases hstart
  · exact (timely_of_lawful hl).link.gap
  · have hdue : s.link.source = .watching due := hdue
    rw [hoff] at hdue
    cases hdue

/-- The blocks take up their running state (R29, R105, R136, R151). -/
theorem timely_enterBlocks (hs : s.Timely) : s.enterBlocks.Timely := by
  refine ⟨fun l => ?_, fun c => ?_, fun o => ?_, ?_⟩
  · rw [lines_enterBlocks]
    exact lineTimely_of_no_run (hs.lines l).range rfl (fun _ => rfl) fun h => absurd rfl h
  · have h := deadlineLawAt_iff.1 (hs.deadlines c)
    refine deadlineLawAt_iff.2 (expiryWith_congr h rfl (fun _ _ => rfl) (fun cfg _ => ?_) rfl rfl)
    rw [lines_enterBlocks]
    rfl
  · rw [outputs_enterBlocks]
    exact frame_apply _ _ _
  · refine linkTimely_source hs.link fun due hdue => ?_
    split at hdue
    · cases hdue
    · cases hdue; rfl

theorem timely_bootArm (hs : s.Timely) : s.bootArm.Timely := by
  refine forChannels_induct State.Timely s _ hs fun c u hu => ?_
  split
  · exact timely_armChannel hu
  · exact hu

theorem timely_offer (now : Time) (src : NoticeSource) (body : NoticeBody) (hs : s.Timely) : (s.offer now src body).Timely :=
  timely_congr hs rfl rfl rfl rfl rfl rfl rfl

theorem timely_enterRunning (outcome : PlanOutcome) (g : Option Count32) (hs : s.Timely) :
    (s.enterRunning outcome g).Timely := timely_bootArm (timely_offer _ _ _ (timely_enterBlocks hs))

theorem timely_planLoadEnd (hl : s.Lawful) (h : execPlanLoadEnd s = .next t) : t.Timely := by
  obtain rfl := Host.Outcome.next.inj h
  split
  · next hd => exact timely_enterRunning _ _ (timely_loadPlan hl hd)
  · exact timely_of_lawful hl

/-! Time -/

theorem acquireHeld_tick {now : Time} {limit : Option Nat} {expiry : Option Time} (h : acquireHeld now limit expiry)
    (hr : ∀ due, expiry = some due → reached now due = false) : acquireHeld (now + 1) limit expiry := by
  cases limit with
  | none => cases expiry with
    | none => trivial
    | some due => exact h
  | some n => cases expiry with
    | none => exact h
    | some due => exact ahead_tick now due n h (hr due rfl)

theorem line_tick (hd : s.device ≠ .reset) (l : Fin 8) : s.tick.lines[l] = { s.lines[l] with sampled := false } := by
  rw [tick_of_not_reset hd]
  exact Vector.getElem_ofFn l.isLt

/-- A microsecond passes when nothing is due, so no held expiry is passed (R18). -/
theorem timely_tick (hs : s.Timely) (hd : s.device ≠ .reset) (hdue : ∀ i, ¬s.Due i) : s.tick.Timely := by
  have hnot {due : Time} {i : Instr} (h : reached s.time due = true → s.Due i) : reached s.time due = false := by
    rw [← Bool.not_eq_true]
    exact fun hr => hdue i (h hr)
  have htime : s.tick.time = s.time + 1 := by rw [tick_of_not_reset hd]
  have hdevice : s.tick.device = s.device := by rw [tick_of_not_reset hd]
  have houtputs : s.tick.outputs = s.outputs := by rw [tick_of_not_reset hd]
  have hlink : s.tick.link = s.link := by rw [tick_of_not_reset hd]
  refine ⟨fun l => ?_, fun c => ?_, fun o => ?_, ?_⟩
  · obtain ⟨hrange, hpositive, htied, hquiet, hsample, hheld⟩ := hs.lines l
    have hshort (start : Time) (hrun : s.lines[l].runStart = some start) : elapsed (s.time + 1) start ≤ s.lines[l].filter :=
      elapsed_tick (by omega) (hheld start hrun) (hnot (.qualification hrun))
    rw [htime, hdevice, line_tick hd]
    refine ⟨hrange, hpositive, htied, fun h => ⟨(hquiet h).1, rfl⟩, fun hrun => ?_, hshort⟩
    exact absurd rfl (ne_tick_of_elapsed (n := s.lines[l].filter) (by omega) (hheld _ hrun))
  · have hchannel := channel_tick hd c
    have hstate : s.tick.channels[c].state = s.channels[c].state := by rw [hchannel]
    have hconfig : s.tick.channels[c].config = s.channels[c].config := by rw [hchannel]
    rw [deadlineLawAt_iff, htime]
    cases deadlineLawAt_iff.1 (hs.deadlines c) with
    | @tracking k start due cfg p st state config pattern step held =>
      obtain ⟨hdue, hahead⟩ := held
      have hfilter : s.tick.lines[cfg.line].filter = s.lines[cfg.line].filter := by rw [line_tick hd]
      refine .tracking (hstate.trans state) (hconfig.trans config) (by rw [patterns_tick]; exact pattern) step ?_
      rw [hfilter]
      exact ⟨hdue, ahead_tick s.time due _ hahead (hnot (.deadline state))⟩
    | seeking state config held =>
      refine .seeking (hstate.trans state) (hconfig.trans config) ?_
      rw [htime]
      exact acquireHeld_tick held fun due hdue => hnot (.acquire (by rw [state, hdue]))
    | quiet state => exact .quiet (by rw [hstate]; exact state)
    | unconfigured config => exact .unconfigured (hconfig.trans config)
  · have hlength := frameLength_le s.outputs[o].rate
    rw [htime, houtputs]
    refine (heldWithin_iff _).2 fun start hstart => ?_
    exact elapsed_tick (by omega) ((heldWithin_iff _).1 (hs.frames o) start hstart) (hnot (.frameEnd hstart))
  · rw [htime, hlink]
    exact ⟨fun due hgap => ahead_tick s.time due _ (hs.link.gap due hgap) (hnot (.gap hgap)),
      fun due hsource => ahead_tick s.time due _ (hs.link.silence due hsource) (hnot (.silence hsource))⟩

theorem not_due_of_nothing_due (hd : s.device ≠ .reset) (h : s.dueEvents = []) (i : Instr) : ¬s.Due i := by
  intro hi
  have hmem := mem_dueEvents.2 ⟨hd, hi⟩
  rw [h] at hmem
  cases hmem

/-- Nothing is due: in RESET nothing passes, else a microsecond, or the load writes the plan (R135). -/
theorem timely_pass (hl : s.Lawful) (hdue : s.dueEvents = []) : s.pass.Timely := by
  have hs := timely_of_lawful hl
  by_cases hd : s.device = .reset
  · rw [pass_of_written (fun ⟨h, _⟩ => by rw [hd] at h; cases h), tick_of_reset hd]
    exact hs
  · have hnot := not_due_of_nothing_due hd hdue
    by_cases hplan : s.device = .starting ∧ s.planWritten = false
    · rw [pass_of_unwritten hplan.1 hplan.2]
      split
      · exact timely_congr (timely_loadPlan hl hplan.1) rfl rfl rfl rfl rfl rfl rfl
      · have htick : s.drawn.tick = { s.tick with draws := s.draws + 1 } := by
          rw [tick_of_not_reset hd, tick_of_not_reset (s := s.drawn) hd]
          rfl
        rw [htick]
        exact timely_congr (timely_tick hs hd hnot) rfl rfl rfl rfl rfl rfl rfl
    · rw [pass_of_written hplan]
      exact timely_tick hs hd hnot

/-! Commands and steps -/

theorem timely_of_request {f : Frame} {carryOut : State → Answer} (hl : s.Lawful)
    (h : Host.Outcome.next (s.request f carryOut) = (.next t : Host.Outcome State Fault Refusal))
    (hk : ∀ u : State, u.TablesLawful → u.Timely → (carryOut u).Timely) : t.Timely := by
  obtain rfl := Host.Outcome.next.inj h
  exact timely_request f ⟨hl.patterns, hl.channels⟩ (timely_of_lawful hl) hk

theorem timely_unknownRequestCode {tag code : Byte} {params : List Byte} (hl : s.Lawful)
    (h : execUnknownRequestCode tag code params s = .next t) : t.Timely := by
  obtain rfl := Host.Outcome.next.inj h
  split
  · exact timely_of_lawful hl
  · exact timely_of_request (f := { tag, code, params }) (carryOut := fun _ => .refuse .unknownRequest) hl rfl
      fun _ _ _ => trivial

/-- Every command keeps the timing laws. -/
theorem timely_exec (i : Instr) (hl : s.Lawful) (h : exec i s = .next t) : t.Timely := by
  have hs := timely_of_lawful hl
  cases i with
  | arm tag params => exact timely_of_request hl h fun _ _ => timely_armAnswer params
  | clearChannel tag params => exact timely_of_request hl h fun _ _ => timely_clearChannelAnswer params
  | clearObserved tag params => exact timely_of_request hl h fun _ _ => timely_clearObservedAnswer params
  | configureChannel tag params => exact timely_of_request hl h fun _ _ => timely_configureChannelAnswer params
  | definePattern tag params => exact timely_of_request hl h fun _ => timely_definePatternAnswer params
  | deletePattern tag params => exact timely_of_request hl h fun _ => timely_deletePatternAnswer params
  | disarm tag params => exact timely_of_request hl h fun _ _ hu => timely_oneParam params fun c => timely_disarm c hu
  | erasePlan tag params => exact timely_of_request hl h fun _ _ => timely_erasePlanAnswer params
  | fetch tag params =>
    exact timely_of_request hl h fun _ _ hu => timely_oneParam params fun _ => timely_congr hu rfl rfl rfl rfl rfl rfl rfl
  | identify tag params => exact timely_of_request hl h fun _ _ hu => timely_noParams params hu
  | inject tag params => exact timely_of_request hl h fun _ _ => timely_injectAnswer params
  | pause tag params => exact timely_of_request hl h fun _ _ => timely_pauseAnswer params
  | readChannel tag params => exact timely_of_request hl h fun _ _ hu => timely_oneParam params fun _ => hu
  | readLine tag params => exact timely_of_request hl h fun _ _ hu => timely_oneParam params fun _ => hu
  | readObserved tag params => exact timely_of_request hl h fun _ _ => timely_readObservedAnswer params
  | readOutput tag params => exact timely_of_request hl h fun _ _ hu => timely_oneParam params fun _ => hu
  | readPattern tag params => exact timely_of_request hl h fun _ _ => timely_readPatternAnswer params
  | readReaction tag params => exact timely_of_request hl h fun _ _ hu => timely_oneParam params fun _ => hu
  | rearm tag params => exact timely_of_request hl h fun _ _ => timely_rearmAnswer params
  | resetRequest tag params =>
    exact timely_of_request hl h fun _ _ hu => timely_noParams params (timely_whenRunning fun _ => hu)
  | resume tag params => exact timely_of_request hl h fun _ _ => timely_resumeAnswer params
  | savePlan tag params => exact timely_of_request hl h fun _ _ => timely_savePlanAnswer params
  | setAttention tag params =>
    exact timely_of_request hl h fun _ _ hu => timely_oneParam params fun _ => timely_congr hu rfl rfl rfl rfl rfl rfl rfl
  | setLine tag params => exact timely_of_request hl h fun _ => timely_setLineAnswer params
  | setLink tag params => exact timely_of_request hl h fun _ _ => timely_setLinkAnswer params
  | setOutput tag params => exact timely_of_request hl h fun _ _ => timely_setOutputAnswer params
  | setReaction tag params => exact timely_of_request hl h fun _ _ => timely_setReactionAnswer params
  | status tag params => exact timely_of_request hl h fun _ _ hu => timely_noParams params hu
  | rawChange l level => exact timely_rawChange hs h
  | qualificationExpiry l => exact timely_qualificationExpiry hs h
  | stepDeadline c =>
    obtain rfl := Host.Outcome.next.inj h
    exact timely_deliverDeadline hs
  | acquireExpiry c => exact timely_acquireExpiry hs h
  | frameEndExpiry o => exact timely_frameEndExpiry hs h
  | saveCompletion matched => exact timely_saveCompletion hs h
  | secondBankInvalidation => exact timely_secondBankInvalidation hs h
  | eraseCompletion => exact timely_eraseCompletion hs h
  | powerOn =>
    obtain rfl := Host.Outcome.next.inj h
    exact timely_of_cleared (cleared_beginReset s _) nofun
  | resetLine =>
    obtain rfl := Host.Outcome.next.inj h
    exact timely_of_cleared (cleared_beginReset _ _) nofun
  | resetEnd => exact timely_resetEnd hl h
  | planLoadEnd => exact timely_planLoadEnd hl h
  | byteArrival b => exact timely_byteArrival hs h
  | framingFault => exact timely_framingFault hs h
  | gapExpiry => exact timely_gapExpiry hs h
  | replySent => exact timely_replySent hs h
  | silenceExpiry => exact timely_silenceExpiry hs h
  | unknownRequestCode tag code params => exact timely_unknownRequestCode hl h

/-- A step is a command, carried out on the state with another queue or another counter, or the passing of time when nothing is
due. -/
theorem step_command_or_nothing_due (h : step s = .next t) :
    (∃ (i : Instr) (pending : List Instr) (draws : Nat), exec i { s with pending, draws } = .next t) ∨
      s.dueEvents = [] ∧ t = s.pass := by
  cases hq : s.pending with
  | cons i rest =>
    unfold step at h
    rw [hq] at h
    exact .inl ⟨i, rest, s.draws, h⟩
  | nil =>
    by_cases hdue : s.dueEvents = []
    · rw [step_of_nothing_due hq hdue] at h
      exact .inr ⟨hdue, (Host.Outcome.next.inj h).symm⟩
    · obtain ⟨i, -, hi⟩ := step_of_due hq hdue
      exact .inl ⟨i, s.pending, s.draws + 1, hi.symm.trans h⟩

/-- Every step keeps the timing laws. -/
theorem timely_step (hl : s.Lawful) (h : step s = .next t) : t.Timely := by
  obtain ⟨i, pending, draws, h⟩ | ⟨hdue, rfl⟩ := step_command_or_nothing_due h
  · exact timely_exec i (lawful_with_pending_draws hl pending draws) h
  · exact timely_pass hl hdue

/-- Settles O9, from the timing laws that every step keeps. -/
theorem lineAndTimingLawsKept : Obligations.LineAndTimingLawsKept :=
  ⟨fun _ _ hl h => (timely_iff.1 (timely_step hl h)).1, fun _ _ hl h => (timely_iff.1 (timely_step hl h)).2⟩

end Sys2Proof.Machine

/-! RESET and STARTING: what their laws ask, block by block, and what an effect outside RUNNING can be (R54, R104, R132). -/

namespace Sys2Proof.Machine

variable {s t : State}

/-- What `QuietLaw` asks of a part outside RUNNING. -/
structure State.Asleep (s : State) : Prop where
  channels : ∀ c : Fin 8, s.channels[c].Quiet
  outputs : ∀ o : Fin 6, s.claims[o] = [] ∧ s.outputs[o].applied = .level .low ∧ s.outputs[o].pending = false
  unwritten : s.planWritten = false → s.link.timeout = 0 ∧ ∀ o : Fin 6, s.outputs[o].base = .level .low
  queue : s.queue.notices = [] ∧ s.queue.nextSeq = 0 ∧ s.queue.dropped = 0
  link : s.link.source = .off
  store : s.store.op = .idle

/-- The laws of RESET and STARTING together. -/
structure State.Dormant (s : State) : Prop where
  asleep : s.device ≠ .running → s.Asleep
  reset : s.ResetLaw

theorem dormant_iff : s.Dormant ↔ s.QuietLaw ∧ s.ResetLaw := by
  constructor
  · refine fun h => ⟨fun hd => ?_, h.reset⟩
    obtain ⟨hchannels, houtputs, hunwritten, ⟨hnotices, hseq, hdropped⟩, hlink, hop⟩ := h.asleep hd
    exact ⟨hchannels, houtputs, hunwritten, hnotices, hseq, hdropped, hlink, hop⟩
  · refine fun ⟨hquiet, hreset⟩ => ⟨fun hd => ?_, hreset⟩
    obtain ⟨hchannels, houtputs, hunwritten, hnotices, hseq, hdropped, hlink, hop⟩ := hquiet hd
    exact ⟨hchannels, houtputs, hunwritten, ⟨hnotices, hseq, hdropped⟩, hlink, hop⟩

theorem dormant_of_lawful (h : s.Lawful) : s.Dormant := dormant_iff.2 ⟨h.quiet, h.reset⟩

theorem dormant_of_running (hd : s.device = .running) : s.Dormant :=
  ⟨fun hn => absurd hd hn, fun hr => by rw [hd] at hr; cases hr⟩

theorem dormant_of_starting (hd : s.device = .starting) (h : s.Asleep) : s.Dormant :=
  ⟨fun _ => h, fun hr => by rw [hd] at hr; cases hr⟩

/-- What a quiet part outside RUNNING does not hold is held in RUNNING. -/
theorem running_of_not_asleep (hs : s.Dormant) (h : ¬s.Asleep) : s.device = .running :=
  by_contra fun hd => h (hs.asleep hd)

/-! Reset, the plan and time -/

/-- When a reset has begun, and whatever the banks are, the part is quiet (R54, R90, R103, R120, R151). -/
theorem asleep_of_cleared {pin : Fin 8 → Level} (h : t.Cleared pin) : t.Asleep := by
  obtain ⟨-, -, -, -, hchannels, -, hclaims, houtputs, hqueue, hop, hlink⟩ := h
  refine ⟨fun c => ?_, fun o => ⟨hclaims o, ?_, ?_⟩, fun _ => ⟨?_, fun o => ?_⟩, ?_, ?_, hop⟩
  · rw [hchannels c]; exact ⟨rfl, rfl, rfl, rfl, rfl, rfl⟩
  · rw [houtputs o]
  · rw [houtputs o]
  · rw [hlink]
  · rw [houtputs o]
  · rw [hqueue]; exact ⟨rfl, rfl, rfl⟩
  · rw [hlink]

theorem dormant_of_cleared {pin : Fin 8 → Level} (h : t.Cleared pin) : t.Dormant := by
  refine ⟨fun _ => asleep_of_cleared h, fun _ => ?_⟩
  obtain ⟨htime, hplan, -, -, -, -, -, -, -, -, hlink⟩ := h
  exact ⟨hlink, htime, hplan⟩

/-- The end of a reset touches the device time and the validity of the banks alone (R17, R132). -/
theorem asleep_endReset (h : s.Asleep) : s.endReset.Asleep :=
  ⟨h.channels, h.outputs, h.unwritten, h.queue, h.link, h.store⟩

/-- The plan items may be written in STARTING: nothing acts on them (R104, R135). -/
theorem asleep_loadPlan {img : Image} (h : s.Asleep) (hacc : img.accepted = true) : (s.loadPlan img).Asleep where
  channels c := by rw [channels_loadPlan]; exact h.channels c
  outputs o := by
    obtain ⟨base, rate, -, -, hout⟩ := outputs_loadPlan s hacc o
    rw [hout]
    exact h.outputs o
  unwritten hp := by cases hp
  queue := h.queue
  link := h.link
  store := h.store

theorem asleep_tick (hd : s.device ≠ .reset) (h : s.Asleep) : s.tick.Asleep := by
  have hchannel := channel_tick hd
  rw [tick_of_not_reset hd] at hchannel ⊢
  exact ⟨fun c => by rw [hchannel c]; exact h.channels c, h.outputs, h.unwritten, h.queue, h.link, h.store⟩

theorem device_tick (s : State) : s.tick.device = s.device := by
  unfold State.tick
  split <;> rfl

/-- The passing of a microsecond (R17). -/
theorem dormant_tick (hs : s.Dormant) : s.tick.Dormant := by
  by_cases hd : s.device = .reset
  · rw [tick_of_reset hd]; exact hs
  · refine ⟨fun hn => asleep_tick hd (hs.asleep ?_), fun hr => absurd ?_ hd⟩
    · rw [← device_tick]; exact hn
    · rw [← device_tick]; exact hr

theorem dormant_drawn (hs : s.Dormant) : s.drawn.Dormant :=
  ⟨fun hn => let h := hs.asleep hn; ⟨h.channels, h.outputs, h.unwritten, h.queue, h.link, h.store⟩, hs.reset⟩

/-- Nothing is due: a microsecond, or the plan is written in STARTING (R135). -/
theorem dormant_pass (hs : s.Dormant) : s.pass.Dormant := by
  by_cases hplan : s.device = .starting ∧ s.planWritten = false
  · obtain ⟨hd, hp⟩ := hplan
    rw [pass_of_unwritten hd hp]
    split
    · have hasleep := (dormant_drawn hs).asleep (by show s.device ≠ .running; rw [hd]; nofun)
      exact dormant_of_starting hd (asleep_loadPlan hasleep (accepted_selectPlan _))
    · exact dormant_tick (dormant_drawn hs)
  · rw [pass_of_written hplan]; exact dormant_tick hs

/-! The link -/

/-- From `k` to `j` the timeout is kept, and LINK does not begin to watch (R147). -/
structure Link.KeepsOff (k j : Link) : Prop where
  timeout : j.timeout = k.timeout
  off : k.source = .off → j.source = .off

variable {k : Link}

theorem keepsOff_trans {i j : Link} (h : k.KeepsOff i) (h' : i.KeepsOff j) : k.KeepsOff j :=
  ⟨h'.timeout.trans h.timeout, fun hk => h'.off (h.off hk)⟩

theorem keepsOff_of_eq {j : Link} (ht : j.timeout = k.timeout) (hs : j.source = k.source) : k.KeepsOff j :=
  ⟨ht, fun hk => hs.trans hk⟩

theorem keepsOff_restart (k : Link) (now : Time) : k.KeepsOff (k.restart now) := by
  unfold Link.restart
  split
  · next due hsource => exact ⟨rfl, fun hk => by rw [hsource] at hk; cases hk⟩
  · exact keepsOff_of_eq rfl rfl

theorem keepsOff_enqueue (k : Link) (now : Time) (f : Frame) : k.KeepsOff (k.enqueue now f) := by
  unfold Link.enqueue
  split
  · exact keepsOff_of_eq rfl rfl
  · simp only
    split
    · exact keepsOff_of_eq rfl rfl
    · exact keepsOff_of_eq rfl rfl

theorem keepsOff_goodFrame (k : Link) (now : Time) (f : Frame) : k.KeepsOff (k.goodFrame now f) :=
  keepsOff_trans (keepsOff_restart k now) (keepsOff_enqueue _ now f)

theorem keepsOff_complete (k : Link) (now : Time) (covered : List Byte) (hi lo : Byte) :
    k.KeepsOff (k.complete now covered hi lo) := by
  unfold Link.complete
  split
  · split
    · exact keepsOff_trans (i := { k with receiver := .hunting }) (keepsOff_of_eq rfl rfl) (keepsOff_goodFrame _ now _)
    · exact keepsOff_of_eq rfl rfl
  · exact keepsOff_of_eq rfl rfl

/-- A byte moves the receiver, and at most completes a frame (R139, R141). -/
theorem keepsOff_receive (k : Link) (now : Time) (b : Byte) : k.KeepsOff (k.receive now b) := by
  unfold Link.receive
  simp only
  split
  · split
    · exact keepsOff_of_eq rfl rfl
    · exact keepsOff_of_eq rfl rfl
  · split
    · exact keepsOff_of_eq rfl rfl
    · exact keepsOff_of_eq rfl rfl
  · split
    · exact keepsOff_of_eq rfl rfl
    · exact keepsOff_of_eq rfl rfl
  · exact keepsOff_complete k now _ _ b
  · exact keepsOff_of_eq rfl rfl

/-- Outside RESET the link works, and leaves the part quiet while LINK does not begin to watch. -/
theorem dormant_withLink (hs : s.Dormant) (hd : s.device ≠ .reset) (hk : s.link.KeepsOff k) :
    ({ s with link := k } : State).Dormant := by
  refine ⟨fun hn => ?_, fun hr => absurd hr hd⟩
  obtain ⟨hchannels, houtputs, hunwritten, hqueue, hlink, hop⟩ := hs.asleep hn
  refine ⟨hchannels, houtputs, fun hp => ?_, hqueue, hk.off hlink, hop⟩
  obtain ⟨htimeout, hbase⟩ := hunwritten hp
  exact ⟨hk.timeout.trans htimeout, hbase⟩

/-! Requests -/

/-- An answer has an effect only in RUNNING, and leaves the part there (R145). -/
def Answer.RunningOnly (s : State) : Answer → Prop
  | .refuse _ => True
  | .ok _ t => t = s ∨ t.device = .running
  | .okThenReset t => t = s ∨ t.device = .running

theorem dormant_answer (tag : Byte) {a : Answer} (hs : s.Dormant) (hd : s.device ≠ .reset) (h : a.RunningOnly s) :
    (s.answer tag a).Dormant := by
  have hreply (r : Reply) (u : State) (hu : u = s ∨ u.device = .running) :
      ({ u with link := u.link.push u.time r } : State).Dormant := by
    obtain rfl | hu := hu
    · exact dormant_withLink hs hd (keepsOff_of_eq rfl rfl)
    · exact dormant_of_running hu
  cases a with
  | refuse status => exact hreply _ s (.inl rfl)
  | ok data u => exact hreply _ u h
  | okThenReset u => exact hreply _ u h

/-- In RESET a request is ignored; in STARTING it can change no more than the link (R132, R145). -/
theorem dormant_request (f : Frame) {carryOut : State → Answer} (hs : s.Dormant)
    (h : ∀ u : State, (carryOut u).RunningOnly u) : (s.request f carryOut).Dormant := by
  obtain ⟨-, he⟩ | ⟨hd, l, hl, hcase⟩ := request_cases s f carryOut
  · rw [he]; exact hs
  · have hlink : s.link.KeepsOff l := by
      obtain ⟨-, rfl⟩ | ⟨-, rfl⟩ := hl
      · exact keepsOff_of_eq rfl rfl
      · exact keepsOff_goodFrame s.link s.time f
    obtain he | ⟨rest, -, -, he⟩ := hcase
    · rw [he]; exact dormant_withLink hs hd hlink
    · have htaken : ({ s with link := { l with inbox := rest } } : State).Dormant :=
        dormant_withLink hs hd (keepsOff_trans hlink (keepsOff_of_eq rfl rfl))
      rw [he]
      exact dormant_answer f.tag htaken hd (h _)

theorem runningOnly_whenRunning {a : Answer} (h : s.device = .running → a.RunningOnly s) :
    (whenRunning s a).RunningOnly s := by
  unfold whenRunning
  split
  · next hd => exact h hd
  · trivial

theorem runningOnly_noParams (params : List Byte) {a : Answer} (h : a.RunningOnly s) : (noParams params a).RunningOnly s := by
  unfold noParams
  split
  · exact h
  · trivial

theorem runningOnly_oneParam {α : Type} (params : List Byte) {parse : Byte → Option α} {k : α → Answer}
    (h : s.device = .running → ∀ x, (k x).RunningOnly s) : (oneParam params s parse k).RunningOnly s := by
  unfold oneParam
  split
  · split
    · exact runningOnly_whenRunning fun hd => h hd _
    · trivial
  · trivial

variable (params : List Byte) (s)

theorem runningOnly_configureChannelAnswer : (configureChannelAnswer params s).RunningOnly s := by
  unfold configureChannelAnswer
  split
  · split
    · refine runningOnly_whenRunning fun hd => ?_
      split
      · trivial
      · split
        · trivial
        · exact .inr hd
    · trivial
  · trivial

theorem runningOnly_clearChannelAnswer : (clearChannelAnswer params s).RunningOnly s := by
  refine runningOnly_oneParam params fun hd c => ?_
  split
  · trivial
  · split
    · trivial
    · exact .inr hd

theorem runningOnly_armAnswer : (armAnswer params s).RunningOnly s := by
  refine runningOnly_oneParam params fun hd c => ?_
  split
  · trivial
  · split
    · trivial
    · split
      · trivial
      · exact .inr hd

theorem device_disarm (c : Fin 8) : (s.disarm c).device = s.device := by
  unfold State.disarm
  split
  · rfl
  · simp only
    split
    · rfl
    · rfl

theorem runningOnly_disarmAnswer : (disarmAnswer params s).RunningOnly s :=
  runningOnly_oneParam params fun hd c => .inr ((device_disarm s c).trans hd)

theorem runningOnly_pauseAnswer : (pauseAnswer params s).RunningOnly s := by
  refine runningOnly_oneParam params fun hd c => ?_
  split
  · exact .inr hd
  · trivial

theorem runningOnly_resumeAnswer : (resumeAnswer params s).RunningOnly s := by
  refine runningOnly_oneParam params fun hd c => ?_
  split
  · exact .inr hd
  · trivial

theorem runningOnly_injectAnswer : (injectAnswer params s).RunningOnly s := by
  refine runningOnly_oneParam params fun hd c => ?_
  split
  · exact .inr ((turn_handleDeviation s c _).device.trans hd)
  · trivial

theorem runningOnly_clearObservedAnswer : (clearObservedAnswer params s).RunningOnly s := by
  refine runningOnly_oneParam params fun hd c => ?_
  split
  · trivial
  · exact .inr hd

theorem runningOnly_rearmAnswer : (rearmAnswer params s).RunningOnly s := by
  refine runningOnly_oneParam params fun hd src => ?_
  split
  · trivial
  · split
    · trivial
    · cases src with
      | channel c => exact .inr hd
      | link => exact .inr hd

theorem runningOnly_readObservedAnswer : (readObservedAnswer params s).RunningOnly s := by
  refine runningOnly_oneParam params fun _ c => ?_
  split
  · trivial
  · exact .inl rfl

theorem runningOnly_definePatternAnswer : (definePatternAnswer params s).RunningOnly s := by
  unfold definePatternAnswer
  split
  · split
    · trivial
    · split
      · split
        · refine runningOnly_whenRunning fun hd => ?_
          split
          · trivial
          · split
            · trivial
            · exact .inr ((congrArg State.device (definePattern_rest s _ _)).trans hd)
        · trivial
      · trivial
  · trivial

theorem runningOnly_deletePatternAnswer : (deletePatternAnswer params s).RunningOnly s := by
  refine runningOnly_oneParam params fun hd id => ?_
  split
  · trivial
  · split
    · trivial
    · exact .inr hd

theorem runningOnly_readPatternAnswer : (readPatternAnswer params s).RunningOnly s := by
  refine runningOnly_oneParam params fun _ id => ?_
  split
  · trivial
  · exact .inl rfl

theorem device_setFilter (l : Fin 8) (f : Nat) (clear : Bool) : (s.setFilter l f clear).1.device = s.device := by
  have hdevice : (s.replaceFilter l f).device = s.device := by rw [replaceFilter_rest]
  rw [setFilter_eq]
  exact hdevice

theorem runningOnly_setLineAnswer : (setLineAnswer params s).RunningOnly s := by
  unfold setLineAnswer
  split
  · split
    · split
      · exact runningOnly_whenRunning fun hd => .inr ((device_setFilter s _ _ _).trans hd)
      · trivial
    · trivial
  · trivial

theorem runningOnly_setLinkAnswer : (setLinkAnswer params s).RunningOnly s := by
  unfold setLinkAnswer
  split
  · split
    · exact runningOnly_whenRunning .inr
    · trivial
  · trivial

theorem runningOnly_savePlanAnswer : (savePlanAnswer params s).RunningOnly s := by
  refine runningOnly_noParams params (runningOnly_whenRunning fun hd => ?_)
  split
  · trivial
  · split
    · trivial
    · exact .inr hd

theorem runningOnly_erasePlanAnswer : (erasePlanAnswer params s).RunningOnly s := by
  refine runningOnly_noParams params (runningOnly_whenRunning fun hd => ?_)
  split
  · trivial
  · exact .inr hd

theorem runningOnly_setReactionAnswer : (setReactionAnswer params s).RunningOnly s := by
  unfold setReactionAnswer
  split
  · split
    · refine runningOnly_whenRunning fun hd => ?_
      split
      · trivial
      · split
        · trivial
        · exact .inr hd
    · trivial
  · trivial

theorem runningOnly_setOutputAnswer : (setOutputAnswer params s).RunningOnly s := by
  unfold setOutputAnswer
  split
  · split
    · exact runningOnly_whenRunning .inr
    · trivial
  · trivial

end Sys2Proof.Machine

/-! Every command, and so every step, keeps RESET and STARTING quiet. -/

namespace Sys2Proof.Machine

variable {s t : State}

/-! Events of what is held only in RUNNING -/

theorem device_acceptEdge (s : State) (l : Fin 8) (stamp : Time) : (s.acceptEdge l stamp).device = s.device := by
  obtain ⟨hdevice, -⟩ := acts_rest (acts_deliverEdge (s.putLine l s.lines[l].accept) l s.lines[l].raw stamp)
  exact hdevice

/-- Outside RUNNING a raw change is only the level outside (R29). -/
theorem dormant_rawChange {l : Fin 8} {level : Level} (hs : s.Dormant) (h : exec (.rawChange l level) s = .next t) :
    t.Dormant := by
  by_cases hsample : s.device = .running ∧ s.lines[l].sampled = false
  · obtain ⟨hd, hsampled⟩ := hsample
    by_cases hlevel : level = s.lines[l].raw
    · rw [rawChange_same hd hsampled hlevel] at h
      obtain rfl := Host.Outcome.next.inj h
      exact dormant_of_running hd
    · rw [rawChange_differs hd hsampled hlevel] at h
      obtain rfl := Host.Outcome.next.inj h
      refine dormant_of_running ?_
      split
      · exact hd
      · split
        · exact (device_acceptEdge _ l _).trans hd
        · exact hd
  · rw [rawChange_unsampled hsample] at h
    obtain rfl := Host.Outcome.next.inj h
    refine ⟨fun hn => ?_, hs.reset⟩
    obtain ⟨hchannels, houtputs, hunwritten, hqueue, hlink, hop⟩ := hs.asleep hn
    exact ⟨hchannels, houtputs, hunwritten, hqueue, hlink, hop⟩

/-- A run is held only in RUNNING (R29). -/
theorem dormant_qualificationExpiry {l : Fin 8} (hl : s.Lawful) (h : execQualificationExpiry l s = .next t) : t.Dormant := by
  obtain rfl := Host.Outcome.next.inj h
  split
  · next start hrun =>
    have hd : s.device = .running := by
      by_contra hn
      obtain ⟨hnone, -⟩ := ((timely_of_lawful hl).lines l).quiet hn
      cases hrun.symm.trans hnone
    split
    · exact dormant_of_running ((device_acceptEdge s l start).trans hd)
    · exact dormant_of_lawful hl
  · exact dormant_of_lawful hl

/-- A channel is outside IDLE only in RUNNING (R54). -/
theorem running_of_active {c : Fin 8} (hs : s.Dormant) (h : s.channels[c].state ≠ .idle) : s.device = .running :=
  running_of_not_asleep hs fun hasleep => let ⟨hidle, _⟩ := hasleep.channels c; h hidle

theorem dormant_deliverDeadline (c : Fin 8) (hs : s.Dormant) : (s.deliverDeadline c).Dormant := by
  by_cases hidle : s.channels[c].state = .idle
  · rw [deliverDeadline_of_not_tracking (by rw [hidle]; nofun)]
    exact hs
  · exact dormant_of_running ((turn_deliverDeadline s c).device.trans (running_of_active hs hidle))

theorem dormant_acquireExpiry {c : Fin 8} (hs : s.Dormant) (h : execAcquireExpiry c s = .next t) : t.Dormant := by
  obtain rfl := Host.Outcome.next.inj h
  split
  · next due hk =>
    have hd := running_of_active hs (c := c) (by rw [hk]; nofun)
    split
    · exact dormant_of_running ((turn_handleDeviation s c _).device.trans hd)
    · exact hs
  · exact hs

/-- A frame runs only in RUNNING (R104). -/
theorem dormant_frameEndExpiry {o : Fin 6} (hl : s.Lawful) (h : execFrameEndExpiry o s = .next t) : t.Dormant := by
  obtain rfl := Host.Outcome.next.inj h
  split
  · next start hframe =>
    have hd : s.device = .running := by_contra fun hn => by cases hframe.symm.trans (frameStart_of_quiet hl hn o)
    split
    · exact dormant_of_running hd
    · exact dormant_of_lawful hl
  · exact dormant_of_lawful hl

/-- A store operation is in flight only in RUNNING (R130). -/
theorem running_of_operation (hs : s.Dormant) (h : s.store.op ≠ .idle) : s.device = .running :=
  running_of_not_asleep hs fun hasleep => h hasleep.store

theorem dormant_saveCompletion {matched : Bool} (hs : s.Dormant) (h : execSaveCompletion matched s = .next t) :
    t.Dormant := by
  obtain rfl := Host.Outcome.next.inj h
  split
  · next hop =>
    have hd := running_of_operation hs (by rw [hop]; nofun)
    split
    · exact hs
    · exact dormant_of_running hd
  · exact hs

theorem dormant_secondBankInvalidation (hs : s.Dormant) (h : execSecondBankInvalidation s = .next t) : t.Dormant := by
  obtain rfl := Host.Outcome.next.inj h
  split
  · next hop =>
    have hd := running_of_operation hs (by rw [hop]; nofun)
    split
    · exact hs
    · exact dormant_of_running hd
  · exact hs

theorem dormant_eraseCompletion (hs : s.Dormant) (h : execEraseCompletion s = .next t) : t.Dormant := by
  obtain rfl := Host.Outcome.next.inj h
  split
  · next hop =>
    have hd := running_of_operation hs (by rw [hop]; nofun)
    split
    · exact hs
    · exact dormant_of_running hd
  · exact hs

/-- LINK watches only in RUNNING (R151). -/
theorem dormant_silenceExpiry (hs : s.Dormant) (h : execSilenceExpiry s = .next t) : t.Dormant := by
  obtain rfl := Host.Outcome.next.inj h
  split
  · next due hsource =>
    have hd := running_of_not_asleep hs fun hasleep => by cases hsource.symm.trans hasleep.link
    split
    · exact dormant_of_running hd
    · exact hs
  · exact hs

/-! Events of the link -/

theorem dormant_byteArrival {b : Byte} (hs : s.Dormant) (h : execByteArrival b s = .next t) : t.Dormant := by
  obtain rfl := Host.Outcome.next.inj h
  split
  · exact hs
  · next hd => exact dormant_withLink hs hd (keepsOff_receive s.link s.time b)

theorem dormant_framingFault (hs : s.Dormant) (h : execFramingFault s = .next t) : t.Dormant := by
  obtain rfl := Host.Outcome.next.inj h
  split
  · exact hs
  · next hd =>
    split
    · exact hs
    · exact dormant_withLink hs hd (keepsOff_of_eq rfl rfl)

/-- In RESET the link is at its reset values: no frame is being received, and no reply sent (R151). -/
theorem link_of_reset (hs : s.Dormant) (hd : s.device = .reset) : s.link = Link.atReset := by
  obtain ⟨hlink, -⟩ := hs.reset hd
  exact hlink

theorem dormant_gapExpiry (hs : s.Dormant) (h : execGapExpiry s = .next t) : t.Dormant := by
  obtain rfl := Host.Outcome.next.inj h
  split
  · next due hgap =>
    have hd : s.device ≠ .reset := fun hd => by rw [link_of_reset hs hd] at hgap; cases hgap
    split
    · exact dormant_withLink hs hd (keepsOff_of_eq rfl rfl)
    · exact hs
  · exact hs

/-- The end of an accepted RESET's reply begins and ends a reset; any other reply leaves the next one to be sent (R131, R144). -/
theorem dormant_replySent (hs : s.Dormant) (h : execReplySent s = .next t) : t.Dormant := by
  obtain rfl := Host.Outcome.next.inj h
  split
  · next hreplies _ =>
    have hd : s.device ≠ .reset := fun hd => by rw [link_of_reset hs hd] at hreplies; cases hreplies
    split
    · split
      · exact dormant_of_starting rfl (asleep_endReset (asleep_of_cleared (cleared_beginReset s _)))
      · exact dormant_withLink hs hd (keepsOff_of_eq rfl rfl)
    · exact hs
  · exact hs

/-! Reset and the load -/

theorem dormant_resetEnd (hs : s.Dormant) (h : execResetEnd s = .next t) : t.Dormant := by
  obtain rfl := Host.Outcome.next.inj h
  split
  · next hd =>
    obtain ⟨hchannels, houtputs, hunwritten, hqueue, hlink, hop⟩ := hs.asleep (by rw [hd]; nofun)
    exact dormant_of_starting rfl (asleep_endReset ⟨hchannels, houtputs, hunwritten, hqueue, hlink, hop⟩)
  · exact hs

/-- The load ends in RUNNING (R136). -/
theorem dormant_planLoadEnd (hs : s.Dormant) (h : execPlanLoadEnd s = .next t) : t.Dormant := by
  obtain rfl := Host.Outcome.next.inj h
  split
  · exact dormant_of_running (congrArg State.device (enterRunning_rest _ _ _))
  · exact hs

/-! Commands and steps -/

theorem dormant_of_request {f : Frame} {carryOut : State → Answer} (hs : s.Dormant)
    (h : Host.Outcome.next (s.request f carryOut) = (.next t : Host.Outcome State Fault Refusal))
    (hk : ∀ u : State, (carryOut u).RunningOnly u) : t.Dormant := by
  obtain rfl := Host.Outcome.next.inj h
  exact dormant_request f hs hk

theorem dormant_unknownRequestCode {tag code : Byte} {params : List Byte} (hs : s.Dormant)
    (h : execUnknownRequestCode tag code params s = .next t) : t.Dormant := by
  obtain rfl := Host.Outcome.next.inj h
  split
  · exact hs
  · exact dormant_request _ hs fun _ => trivial

/-- Every command keeps RESET and STARTING quiet. -/
theorem dormant_exec (i : Instr) (hl : s.Lawful) (h : exec i s = .next t) : t.Dormant := by
  have hs := dormant_of_lawful hl
  cases i with
  | arm tag params => exact dormant_of_request hs h fun u => runningOnly_armAnswer u params
  | clearChannel tag params => exact dormant_of_request hs h fun u => runningOnly_clearChannelAnswer u params
  | clearObserved tag params => exact dormant_of_request hs h fun u => runningOnly_clearObservedAnswer u params
  | configureChannel tag params => exact dormant_of_request hs h fun u => runningOnly_configureChannelAnswer u params
  | definePattern tag params => exact dormant_of_request hs h fun u => runningOnly_definePatternAnswer u params
  | deletePattern tag params => exact dormant_of_request hs h fun u => runningOnly_deletePatternAnswer u params
  | disarm tag params => exact dormant_of_request hs h fun u => runningOnly_disarmAnswer u params
  | erasePlan tag params => exact dormant_of_request hs h fun u => runningOnly_erasePlanAnswer u params
  | fetch tag params => exact dormant_of_request hs h fun _ => runningOnly_oneParam params fun hd _ => .inr hd
  | identify tag params => exact dormant_of_request hs h fun _ => runningOnly_noParams params (.inl rfl)
  | inject tag params => exact dormant_of_request hs h fun u => runningOnly_injectAnswer u params
  | pause tag params => exact dormant_of_request hs h fun u => runningOnly_pauseAnswer u params
  | readChannel tag params => exact dormant_of_request hs h fun _ => runningOnly_oneParam params fun _ _ => .inl rfl
  | readLine tag params => exact dormant_of_request hs h fun _ => runningOnly_oneParam params fun _ _ => .inl rfl
  | readObserved tag params => exact dormant_of_request hs h fun u => runningOnly_readObservedAnswer u params
  | readOutput tag params => exact dormant_of_request hs h fun _ => runningOnly_oneParam params fun _ _ => .inl rfl
  | readPattern tag params => exact dormant_of_request hs h fun u => runningOnly_readPatternAnswer u params
  | readReaction tag params => exact dormant_of_request hs h fun _ => runningOnly_oneParam params fun _ _ => .inl rfl
  | rearm tag params => exact dormant_of_request hs h fun u => runningOnly_rearmAnswer u params
  | resetRequest tag params =>
    exact dormant_of_request hs h fun _ => runningOnly_noParams params (runningOnly_whenRunning fun _ => .inl rfl)
  | resume tag params => exact dormant_of_request hs h fun u => runningOnly_resumeAnswer u params
  | savePlan tag params => exact dormant_of_request hs h fun u => runningOnly_savePlanAnswer u params
  | setAttention tag params => exact dormant_of_request hs h fun _ => runningOnly_oneParam params fun hd _ => .inr hd
  | setLine tag params => exact dormant_of_request hs h fun u => runningOnly_setLineAnswer u params
  | setLink tag params => exact dormant_of_request hs h fun u => runningOnly_setLinkAnswer u params
  | setOutput tag params => exact dormant_of_request hs h fun u => runningOnly_setOutputAnswer u params
  | setReaction tag params => exact dormant_of_request hs h fun u => runningOnly_setReactionAnswer u params
  | status tag params => exact dormant_of_request hs h fun _ => runningOnly_noParams params (.inl rfl)
  | rawChange l level => exact dormant_rawChange hs h
  | qualificationExpiry l => exact dormant_qualificationExpiry hl h
  | stepDeadline c =>
    obtain rfl := Host.Outcome.next.inj h
    exact dormant_deliverDeadline c hs
  | acquireExpiry c => exact dormant_acquireExpiry hs h
  | frameEndExpiry o => exact dormant_frameEndExpiry hl h
  | saveCompletion matched => exact dormant_saveCompletion hs h
  | secondBankInvalidation => exact dormant_secondBankInvalidation hs h
  | eraseCompletion => exact dormant_eraseCompletion hs h
  | powerOn =>
    obtain rfl := Host.Outcome.next.inj h
    exact dormant_of_cleared (cleared_beginReset s _)
  | resetLine =>
    obtain rfl := Host.Outcome.next.inj h
    exact dormant_of_cleared (cleared_beginReset _ _)
  | resetEnd => exact dormant_resetEnd hs h
  | planLoadEnd => exact dormant_planLoadEnd hs h
  | byteArrival b => exact dormant_byteArrival hs h
  | framingFault => exact dormant_framingFault hs h
  | gapExpiry => exact dormant_gapExpiry hs h
  | replySent => exact dormant_replySent hs h
  | silenceExpiry => exact dormant_silenceExpiry hs h
  | unknownRequestCode tag code params => exact dormant_unknownRequestCode hs h

/-- Every step keeps RESET and STARTING quiet. -/
theorem dormant_step (hl : s.Lawful) (h : step s = .next t) : t.Dormant := by
  obtain ⟨i, pending, draws, h⟩ | rfl := step_cases h
  · exact dormant_exec i (lawful_with_pending_draws hl pending draws) h
  · exact dormant_pass (dormant_of_lawful hl)

/-- Settles O13, from the laws of RESET and STARTING that every step keeps. -/
theorem quietLawKept : Obligations.QuietLawKept := fun _ _ hl h => dormant_iff.1 (dormant_step hl h)

end Sys2Proof.Machine

/-! The requests of the channels, as the executor carries them out in RUNNING (R34 to R40, R53). -/

namespace Sys2Proof.Machine

variable {s : State} {c : Fin 8}

theorem not_isIdle_iff (x : ChannelState) : (!x.isIdle) = true ↔ x ≠ .idle := by
  rw [Bool.not_eq_true', ← Bool.not_eq_true, isIdle_iff]

theorem supervising_iff (x : ChannelState) :
    x.supervising = true ↔ (∃ expiry, x = .seeking expiry) ∨ ∃ k start due, x = .tracking k start due := by
  cases x <;> simp [ChannelState.supervising]

/-- A request for one channel, carried out in RUNNING. -/
theorem oneParam_channel (hd : s.device = .running) (c : Fin 8) (k : Fin 8 → Answer) :
    oneParam [byte c] s (finOf 8) k = k c := oneParam_value hd (finOf_byte 8 c (by decide)) k

theorem putChannel_putChannel (s : State) (c : Fin 8) (x y : Channel) :
    (s.putChannel c x).putChannel c y = s.putChannel c y := by
  unfold State.putChannel
  simp only [Vector.set_set]

/-! CONFIGURE_CHANNEL, CLEAR_CHANNEL, CLEAR_OBSERVED -/

/-- The frame of a configuration in range: WRONG_STATE, then NO_SUCH_PATTERN, then the configuration (R34, R159). -/
theorem configureChannelAnswer_of_inRange {cfg : ChannelConfig} (hr : cfg.InRange) (hd : s.device = .running) :
    configureChannelAnswer (byte c :: cfg.bytes) s =
      if s.channels[c].state ≠ .idle then .refuse .wrongState
      else s.patterns[cfg.pattern].elim (.refuse .noSuchPattern) fun p =>
        .ok [byte c, byte p.steps.length] (s.configure c cfg p.steps.length) := by
  obtain ⟨line, pat, limit, forgive, pres, a, b, d, mask, boot, hbytes, hparse⟩ := configOf_bytes cfg hr
  rw [hbytes]
  simp only [configureChannelAnswer, finOf_byte 8 c (by decide), hparse, whenRunning, hd, if_true, not_isIdle_iff]
  cases s.patterns[cfg.pattern] <;> rfl

/-- Settles O38: the three answers of the executor, in the order of the checks. -/
theorem configureChannelWritesTheConfiguration : Obligations.ConfigureChannelWritesTheConfiguration := by
  rintro s tag c cfg rest hr ⟨htakes, hd⟩
  have hanswer := configureChannelAnswer_of_inRange (s := s.taken rest) (c := c) hr hd
  refine ⟨fun hstate => congrArg _ (request_refused htakes (hanswer.trans (if_pos hstate))), fun hidle hp => ?_,
    fun p hidle hp => ?_⟩
  · have hp : (s.taken rest).patterns[cfg.pattern] = none := hp
    rw [hp] at hanswer
    exact congrArg _ (request_refused htakes (hanswer.trans (if_neg (not_not_intro hidle))))
  · have hp : (s.taken rest).patterns[cfg.pattern] = some p := hp
    rw [hp] at hanswer
    exact congrArg _ (request_accepted htakes (hanswer.trans (if_neg (not_not_intro hidle))) rfl rfl)

theorem clearChannelAnswer_of_running (hd : s.device = .running) :
    clearChannelAnswer [byte c] s =
      if s.channels[c].state ≠ .idle then .refuse .wrongState
      else if s.channels[c].config = none then .refuse .notConfigured
      else .ok [byte c] (s.putChannel c s.channels[c].clear) := by
  refine (oneParam_channel hd c _).trans ?_
  simp only [not_isIdle_iff]
  cases hc : s.channels[c].config <;> simp

/-- CLEAR_OBSERVED of a configured channel sizes the table to the pattern that it names (R53). -/
theorem clearObservedAnswer_of_running (hd : s.device = .running) :
    clearObservedAnswer [byte c] s =
      if s.channels[c].config = none then .refuse .notConfigured
      else .ok [byte c] (s.putChannel c (s.channels[c].clearObserved (((s.patternOf c).map (·.steps.length)).getD 0))) := by
  refine (oneParam_channel hd c _).trans ?_
  cases hc : s.channels[c].config with
  | none => simp
  | some cfg => cases s.patternOf c <;> simp

/-- Settles O39: the answers of the executor, in the order of the checks. -/
theorem clearChannelAndClearObserved : Obligations.ClearChannelAndClearObserved := by
  refine fun s tag c rest => ⟨fun ⟨htakes, hd⟩ => ?_, fun ⟨htakes, hd⟩ => ?_⟩
  · have hanswer := clearChannelAnswer_of_running (s := s.taken rest) (c := c) hd
    refine ⟨fun hstate => congrArg _ (request_refused htakes (hanswer.trans (if_pos hstate))), fun hidle hc => ?_,
      fun hidle hc => ?_⟩
    · exact congrArg _ (request_refused htakes ((hanswer.trans (if_neg (not_not_intro hidle))).trans (if_pos hc)))
    · exact congrArg _
        (request_accepted htakes ((hanswer.trans (if_neg (not_not_intro hidle))).trans (if_neg hc)) rfl rfl)
  · have hanswer := clearObservedAnswer_of_running (s := s.taken rest) (c := c) hd
    refine ⟨fun hc => congrArg _ (request_refused htakes (hanswer.trans (if_pos hc))), fun cfg p hc hp => ?_⟩
    have hpattern : (s.taken rest).patternOf c = some p := (patternOf_eq (s := s.taken rest) hc).trans hp
    have hsome : (s.taken rest).channels[c].config ≠ none := fun h => by cases hc.symm.trans h
    rw [hpattern] at hanswer
    exact congrArg _ (request_accepted htakes (hanswer.trans (if_neg hsome)) rfl rfl)

/-! ARM, PAUSE, RESUME -/

theorem seek_of_configured {cfg : ChannelConfig} (hc : s.channels[c].config = some cfg) :
    s.seek c = s.putChannel c { s.channels[c] with state := .seeking (cfg.acquire.map (after s.time)) } := by
  unfold State.seek
  simp only [hc]

/-- ARM writes a whole record: the configuration stays, all else is cleared, and the channel seeks (R36). -/
theorem armChannel_of_configured {cfg : ChannelConfig} {p : Pattern} (hc : s.channels[c].config = some cfg)
    (hp : s.patterns[cfg.pattern] = some p) :
    s.armChannel c = s.putChannel c
      { config := some cfg, state := .seeking (cfg.acquire.map (after s.time)), strikes := 0, goodRun := 0, cycles := 0
        counts := .zero, last := none, observed := clearedTable p.steps.length, closure := none } := by
  have hchannel := channel_armChannel s c
  rw [patternOf_eq hc, hp, hc] at hchannel
  have hput : s.armChannel c = s.putChannel c (s.armChannel c).channels[c] := by
    rw [show (s.armChannel c).channels[c] = _ from channels_get_putChannel_self _ c _]
    exact putChannel_putChannel s c _ _
  rw [hput, hchannel]
  simp only [hc]
  rfl

theorem armAnswer_of_running (hd : s.device = .running) :
    armAnswer [byte c] s =
      if s.channels[c].state ≠ .idle then .refuse .wrongState
      else if s.channels[c].config = none then .refuse .notConfigured
      else if s.queue.tripPending (.channel c) then .refuse .noticePending
      else .ok [byte c] (s.armChannel c) := by
  refine (oneParam_channel hd c _).trans ?_
  simp only [not_isIdle_iff]
  cases hc : s.channels[c].config <;> simp

/-- Settles O40: the four answers of the executor, in the order of the checks. -/
theorem armClearsAndSeeks : Obligations.ArmClearsAndSeeks := by
  rintro s tag c rest ⟨htakes, hd⟩
  have hanswer := armAnswer_of_running (s := s.taken rest) (c := c) hd
  refine ⟨fun hstate => congrArg _ (request_refused htakes (hanswer.trans (if_pos hstate))), fun hidle hc => ?_,
    fun cfg hidle hc => ?_⟩
  · exact congrArg _ (request_refused htakes ((hanswer.trans (if_neg (not_not_intro hidle))).trans (if_pos hc)))
  · have hsome : (s.taken rest).channels[c].config ≠ none := fun h => by cases hc.symm.trans h
    have hanswer := (hanswer.trans (if_neg (not_not_intro hidle))).trans (if_neg hsome)
    refine ⟨fun hpending => ?_, fun hnone p hp => ?_⟩
    · exact congrArg _ (request_refused htakes (hanswer.trans (if_pos ((tripPending_iff _ _).2 hpending))))
    · have hclear : ¬(s.taken rest).queue.tripPending (.channel c) = true := by
        rw [Bool.not_eq_true]
        exact (tripPending_false_iff _ _).2 hnone
      rw [armChannel_of_configured (s := s.taken rest) hc hp] at hanswer
      exact congrArg _ (request_accepted htakes (hanswer.trans (if_neg hclear)) rfl rfl)

/-- Settles O41: each request is accepted in its own states, and refused in the others. -/
theorem pauseAndResume : Obligations.PauseAndResume := by
  refine fun s tag c rest => ⟨fun ⟨htakes, hd⟩ => ?_, fun ⟨htakes, hd⟩ => ?_⟩
  · have hanswer : pauseAnswer [byte c] (s.taken rest) = _ := oneParam_channel (s := s.taken rest) hd c _
    refine ⟨fun hactive => ?_, fun hother => ?_⟩
    · exact congrArg _ (request_accepted htakes (hanswer.trans (if_pos ((supervising_iff _).2 hactive))) rfl rfl)
    · refine congrArg _ (request_refused htakes (hanswer.trans (if_neg ?_)))
      show ¬s.channels[c].state.supervising = true
      obtain h | h | h := hother <;> rw [h] <;> exact Bool.false_ne_true
  · have hanswer : resumeAnswer [byte c] (s.taken rest) = _ := oneParam_channel (s := s.taken rest) hd c _
    refine ⟨fun cfg hpaused hc => ?_, fun hother => ?_⟩
    · rw [seek_of_configured (s := s.taken rest) hc] at hanswer
      exact congrArg _ (request_accepted htakes (hanswer.trans (if_pos hpaused)) rfl rfl)
    · exact congrArg _ (request_refused htakes (hanswer.trans (if_neg hother)))

/-! DISARM -/

/-- A channel's record after DISARM outside IDLE (R40). -/
def Channel.disarmed (ch : Channel) : Channel := { ch with state := .idle, strikes := 0, goodRun := 0 }

theorem disarm_of_idle (h : s.channels[c].state = .idle) : s.disarm c = s := by
  unfold State.disarm
  rw [h]
  rfl

theorem disarm_of_active (hi : s.channels[c].state ≠ .idle) (ht : s.channels[c].state ≠ .tripped) :
    s.disarm c = s.putChannel c s.channels[c].disarmed :=
  (if_neg fun h => hi ((isIdle_iff _).1 h)).trans (if_neg ht)

theorem disarm_of_tripped (h : s.channels[c].state = .tripped) :
    s.disarm c = (s.putChannel c s.channels[c].disarmed).releaseClaims (.channel c) :=
  (if_neg fun hi => by rw [h] at hi; cases hi).trans (if_pos h)

/-- Settles O42: DISARM from each of the five states. -/
theorem disarmReturnsToIdle : Obligations.DisarmReturnsToIdle := by
  rintro s tag c rest ⟨htakes, hd⟩
  have hanswer : disarmAnswer [byte c] (s.taken rest) =
      .ok [byte c, s.channels[c].state.toByte] ((s.taken rest).disarm c) := oneParam_channel (s := s.taken rest) hd c _
  refine ⟨fun hidle => ?_, fun code hcode => ?_, fun htripped => ?_⟩
  · rw [disarm_of_idle (s := s.taken rest) hidle, hidle] at hanswer
    exact congrArg _ (request_read htakes hanswer)
  · obtain ⟨hi, ht, hbyte⟩ : s.channels[c].state ≠ .idle ∧ s.channels[c].state ≠ .tripped ∧
        s.channels[c].state.toByte = code := by
      obtain ⟨⟨expiry, h⟩, rfl⟩ | ⟨⟨k, start, due, h⟩, rfl⟩ | ⟨h, rfl⟩ := hcode <;> rw [h] <;>
        exact ⟨nofun, nofun, rfl⟩
    rw [disarm_of_active (s := s.taken rest) hi ht, hbyte] at hanswer
    exact congrArg _ (request_accepted htakes hanswer rfl rfl)
  · rw [disarm_of_tripped (s := s.taken rest) htripped, htripped] at hanswer
    exact congrArg _ (request_accepted htakes hanswer rfl rfl)

end Sys2Proof.Machine

/-! One channel and one edge: a closing edge, a sync edge, an edge inside the window and one outside it (R42 to R49, R57, R58,
R65, R66); and the channel's own expiries (R59, R60). -/

namespace Sys2Proof.Machine

variable {s : State} {c : Fin 8} {cfg : ChannelConfig} {p : Pattern} {st : PatternStep} {level : Level} {stamp : Time}

/-! Deadlines and acquire expiries -/

theorem acquireExpiry_of_seeking {due : Time} (h : s.channels[c].state = .seeking (some due)) :
    exec (.acquireExpiry c) s = .next
      (if reached s.time due then
        s.handleDeviation c { kind := .noSignal, step := none, measured := none, time := s.time }
      else s) := by
  show Host.Outcome.next _ = _
  rw [h]

theorem acquireExpiry_of_not_held (h : ∀ due, s.channels[c].state ≠ .seeking (some due)) :
    exec (.acquireExpiry c) s = .next s := by
  show Host.Outcome.next _ = _
  congr 1
  split
  · next due hk => exact absurd hk (h due)
  · rfl

/-- Settles O53: a deadline or an expiry that is held and reached, held and not reached, and not held. -/
theorem expiriesOfAChannelDeviate : Obligations.ExpiriesOfAChannelDeviate := by
  refine fun s c => ⟨fun k start due cfg p st hk hc hp hst => ?_, fun due hk => ?_, fun h => ?_, acquireExpiry_of_not_held⟩
  · have hdeliver := deliverDeadline_of_tracking hc hp hst hk
    exact ⟨fun hr => congrArg _ (hdeliver.trans (if_neg (by rw [hr]; exact Bool.false_ne_true))),
      fun hr => congrArg _ (hdeliver.trans (if_pos hr))⟩
  · have hexpiry := acquireExpiry_of_seeking hk
    exact ⟨fun hr => hexpiry.trans (congrArg _ (if_neg (by rw [hr]; exact Bool.false_ne_true))),
      fun hr => hexpiry.trans (congrArg _ (if_pos hr))⟩
  · exact congrArg _ (deliverDeadline_of_not_tracking h)

/-- A channel without a step: IDLE, PAUSED or TRIPPED, which ignore edges (R33). -/
def ChannelState.Ignores (x : ChannelState) : Prop := x = .idle ∨ x = .paused ∨ x = .tripped

theorem not_tracking_of_ignores {x : ChannelState} (h : x.Ignores) (k : Nat) (start due : Time) :
    x ≠ .tracking k start due := by
  obtain h | h | h := h <;> rw [h] <;> nofun

/-! The entry of an edge: a held closure first -/

/-- The entry that R32 writes out. -/
theorem update_eq (d : Nat) :
    (fun e : ObservedEntry => e.update d) = fun e =>
      { count := satSucc e.count
        shortest := some (if e.count = 0 then d else Nat.min d (e.shortest.getD d))
        longest := some (if e.count = 0 then d else Nat.max d (e.longest.getD d)) } := by
  funext e
  unfold ObservedEntry.update
  split <;> rfl

/-- The closing edge of a held closure is recorded in the entry of the closed step (R66). -/
theorem closeByEdge_closing {cl : Closure} (hcl : s.channels[c].closure = some cl) (ht : cl.closing = stamp)
    (hc : s.channels[c].config = some cfg) (hp : s.patterns[cfg.pattern] = some p) (hst : p.steps[cl.step]? = some st) :
    s.closeByEdge c stamp = s.putChannel c { s.channels[c].observe cl.step st.max with closure := none } := by
  unfold State.closeByEdge
  rw [hcl, patternOf_eq hc, hp]
  simp only [ht, if_true, hst]

/-- A channel acts on the edge from the state that the closing edge leaves. -/
theorem edgeTurn_of_closed {u : State} (h : s.closeByEdge c stamp = u) (hu : u.closeByEdge c stamp = u) :
    s.edgeTurn c level stamp = u.edgeTurn c level stamp := by
  unfold State.edgeTurn
  rw [h, hu]

theorem edgeTurn_of_ignores (hcl : s.closeByEdge c stamp = s) (h : s.channels[c].state.Ignores) :
    s.edgeTurn c level stamp = s := by
  unfold State.edgeTurn
  rw [hcl]
  simp only
  obtain h | h | h := h <;> rw [h] <;> cases s.channels[c].config <;> rfl

theorem edgeTurn_of_seeking {expiry : Option Time} (hcl : s.closeByEdge c stamp = s)
    (hk : s.channels[c].state = .seeking expiry) (hc : s.channels[c].config = some cfg) :
    s.edgeTurn c level stamp = s.syncEdge c level stamp := by
  unfold State.edgeTurn
  rw [hcl]
  simp only
  rw [hk, hc]

theorem edgeTurn_of_tracking {k : Nat} {start due : Time} (hcl : s.closeByEdge c stamp = s)
    (hk : s.channels[c].state = .tracking k start due) (hc : s.channels[c].config = some cfg) :
    s.edgeTurn c level stamp = s.trackEdge c cfg k start level stamp := by
  unfold State.edgeTurn
  rw [hcl]
  simp only
  rw [hk, hc]

/-! The step that an edge begins -/

section
variable (hc : s.channels[c].config = some cfg) (hp : s.patterns[cfg.pattern] = some p)
include hc hp

theorem enterStep_eq {k : Nat} (hst : p.steps[k]? = some st) :
    s.enterStep c k stamp = s.placeDeadline c k stamp (st.max + s.lines[cfg.line].filter) := by
  unfold State.enterStep State.filterOf
  rw [patternOf_eq hc, hp, hc]
  simp only [hst]
  rfl

theorem syncEdge_other (h : level ≠ p.startLevel) : s.syncEdge c level stamp = s := by
  unfold State.syncEdge
  rw [patternOf_eq hc, hp]
  exact if_neg h

theorem syncEdge_start (hst : p.steps[0]? = some st) :
    s.syncEdge c p.startLevel stamp = s.placeDeadline c 0 stamp (st.max + s.lines[cfg.line].filter) := by
  unfold State.syncEdge
  rw [patternOf_eq hc, hp]
  exact (if_pos rfl).trans (enterStep_eq hc hp hst)

end

/-- A deadline that has just been placed and has not been reached is not delivered (R18). -/
theorem deliverDeadline_of_ahead {k : Nat} {start due : Time} (hk : s.channels[c].state = .tracking k start due)
    (hr : reached s.time due = false) : s.deliverDeadline c = s := by
  unfold State.deliverDeadline
  rw [hk]
  cases s.patternOf c with
  | none => rfl
  | some p =>
    simp only [hr, Bool.false_eq_true, if_false]
    cases p.steps[k]? <;> rfl

/-! The delivery after the turn -/

section
variable {u : State} (h : s.edgeTurn c level stamp = u)
include h

/-- What the turn with an edge leaves is what the step deadline is delivered to. -/
theorem stepDeadline_of_edgeTurn : exec (.stepDeadline c) u = .next (s.edgeToChannel c level stamp) := by
  rw [← h]
  rfl

theorem edgeToChannel_of_not_tracking (hk : ∀ k start due, u.channels[c].state ≠ .tracking k start due) :
    s.edgeToChannel c level stamp = u := by
  unfold State.edgeToChannel
  rw [h]
  exact deliverDeadline_of_not_tracking hk

/-- The turn leaves a step whose deadline is ahead: nothing more is delivered. -/
theorem edgeToChannel_of_ahead {k : Nat} {start due : Time} (hk : u.channels[c].state = .tracking k start due)
    (hr : reached u.time due = false) : s.edgeToChannel c level stamp = u := by
  unfold State.edgeToChannel
  rw [h]
  exact deliverDeadline_of_ahead hk hr

end

/-- Settles O50: an edge without a closure for it, state by state, and then a closing edge in any state. -/
theorem aSyncEdgeBeginsStepZero : Obligations.ASyncEdgeBeginsStepZero := by
  refine ⟨fun s c level stamp hopen => ?_, ?_⟩
  · have hcl := closeByEdge_other s c stamp hopen
    refine ⟨fun h => ?_, fun expiry cfg p st hk hc hp hst => ?_⟩
    · have hsame := edgeTurn_of_ignores (level := level) hcl h
      exact ⟨hsame, edgeToChannel_of_not_tracking hsame (not_tracking_of_ignores h)⟩
    · have hturn := edgeTurn_of_seeking (level := level) hcl hk hc
      refine ⟨fun hother => ?_, ?_⟩
      · have hsame := hturn.trans (syncEdge_other hc hp hother)
        exact ⟨hsame, edgeToChannel_of_not_tracking hsame (by rw [hk]; nofun)⟩
      · have hsync (h : level = p.startLevel) :
            s.edgeTurn c level stamp = s.placeDeadline c 0 stamp (st.max + s.lines[cfg.line].filter) := by
          rw [hturn, h]
          exact syncEdge_start hc hp hst
        have hstate := congrArg Channel.state (channel_placeDeadline s c 0 stamp (st.max + s.lines[cfg.line].filter))
        exact ⟨hsync, fun h hr => edgeToChannel_of_ahead (hsync h) hstate hr, fun h _ => stepDeadline_of_edgeTurn (hsync h)⟩
  · rintro s c level stamp cl cfg p st u hcl ht hc hp hst hu
    have hclose : s.closeByEdge c stamp = u := by
      rw [closeByEdge_closing hcl ht hc hp hst, hu, ← update_eq]
      rfl
    have hrecord : u.channels[c] = { s.channels[c].observe cl.step st.max with closure := none } := by
      rw [← hclose, closeByEdge_closing hcl ht hc hp hst]
      exact channels_get_putChannel_self s c _
    have hopen : u.closeByEdge c stamp = u := closeByEdge_other u c stamp (by rw [hrecord]; rfl)
    have hturn := edgeTurn_of_closed (level := level) hclose hopen
    refine ⟨hturn, congrArg (State.deliverDeadline · c) hturn, fun h => ?_⟩
    have hignores : u.channels[c].state.Ignores := by rw [hrecord]; exact h
    have hsame := hturn.trans (edgeTurn_of_ignores hopen hignores)
    exact ⟨hsame, edgeToChannel_of_not_tracking hsame (not_tracking_of_ignores hignores)⟩

/-! An edge in TRACKING -/

/-- A channel's record after step `k` of `n` has passed, before the next step: a wrap completes a cycle (R45, R46). -/
def Channel.passed (ch : Channel) (k n forgive : Nat) : Channel :=
  if k + 1 = n then ch.completeCycle forgive else ch

/-- The counts that R46 and R47 write out. -/
theorem passed_eq (ch : Channel) (k n forgive : Nat) :
    ch.passed k n forgive =
      { ch with
        cycles := if k + 1 = n then ch.cycles + 1 else ch.cycles
        goodRun :=
          if k + 1 = n ∧ forgive ≠ 0 then if ch.goodRun + 1 = forgive then 0 else ch.goodRun + 1 else ch.goodRun
        strikes := if k + 1 = n ∧ forgive ≠ 0 ∧ ch.goodRun + 1 = forgive then ch.strikes - 1 else ch.strikes } := by
  unfold Channel.passed Channel.completeCycle
  by_cases hn : k + 1 = n
  · by_cases hf : forgive = 0
    · simp [hn, hf]
    · by_cases hg : ch.goodRun + 1 = forgive
      · simp [hn, hf, hg]
      · simp [hn, hf, hg]
  · simp [hn]

/-- The end of a passed step: the record counts it, and the next step begins at the stamp (R45, R48). -/
theorem advance_eq {k next : Nat} (hc : s.channels[c].config = some cfg) (hp : s.patterns[cfg.pattern] = some p)
    (hnext : next = if k + 1 = p.steps.length then 0 else k + 1) (hst : p.steps[next]? = some st) :
    (if k + 1 = p.steps.length then (s.putChannel c (s.channels[c].completeCycle cfg.forgive)).enterStep c 0 stamp
      else s.enterStep c (k + 1) stamp) =
      s.putChannel c { s.channels[c].passed k p.steps.length cfg.forgive with
        state := .tracking next stamp (after stamp (st.max + s.lines[cfg.line].filter)) } := by
  unfold Channel.passed
  by_cases hwrap : k + 1 = p.steps.length
  · rw [if_pos hwrap] at hnext
    subst hnext
    have hput := channels_get_putChannel_self s c (s.channels[c].completeCycle cfg.forgive)
    have henter := enterStep_eq (s := s.putChannel c (s.channels[c].completeCycle cfg.forgive)) (c := c) (stamp := stamp)
      (by rw [hput, config_completeCycle]; exact hc) hp hst
    rw [if_pos hwrap, if_pos hwrap, henter]
    unfold State.placeDeadline
    rw [hput]
    exact putChannel_putChannel s c _ _
  · rw [if_neg hwrap] at hnext
    subst hnext
    rw [if_neg hwrap, if_neg hwrap, enterStep_eq hc hp hst]
    rfl

/-- The state after a step has passed, before the record advances: a marked step in a mask with MARK offers its notice (R45). -/
def State.marked (s : State) (c : Fin 8) (cfg : ChannelConfig) (st : PatternStep) (k d : Nat) (stamp : Time) : State :=
  if st.mark && reportsMark cfg.report then s.offer stamp (.trip (.channel c)) (.mark k d s.channels[c].cycles) else s

theorem marked_eq (s : State) (c : Fin 8) (cfg : ChannelConfig) (st : PatternStep) (k d : Nat) (stamp : Time) :
    s.marked c cfg st k d stamp =
      { s with queue :=
          if st.mark = true ∧ cfg.report.getLsbD 4 = true then
            s.queue.offer stamp (.trip (.channel c)) (.mark k d s.channels[c].cycles)
          else s.queue } := by
  unfold State.marked reportsMark
  simp only [Bool.and_eq_true]
  split <;> rfl

/-- A passed step: the notice, then the record and the next step. -/
theorem passStep_eq {k next : Nat} {st' : PatternStep} (d : Nat) (hc : s.channels[c].config = some cfg)
    (hp : s.patterns[cfg.pattern] = some p) (hnext : next = if k + 1 = p.steps.length then 0 else k + 1)
    (hst : p.steps[next]? = some st') :
    s.passStep c cfg p st k d stamp =
      { s with
        queue :=
          if st.mark = true ∧ cfg.report.getLsbD 4 = true then
            s.queue.offer stamp (.trip (.channel c)) (.mark k d s.channels[c].cycles)
          else s.queue
        channels := s.channels.set c { s.channels[c].passed k p.steps.length cfg.forgive with
          state := .tracking next stamp (after stamp (st'.max + s.lines[cfg.line].filter)) } } := by
  have hmarked := marked_eq s c cfg st k d stamp
  have hadvance := advance_eq (s := s.marked c cfg st k d stamp) (c := c) (cfg := cfg) (p := p) (st := st') (stamp := stamp)
    (by rw [hmarked]; exact hc) (by rw [hmarked]; exact hp) hnext hst
  refine (show s.passStep c cfg p st k d stamp = _ from hadvance).trans ?_
  rw [hmarked]
  rfl

/-- In TRACKING the observed entry takes the duration first, and then the window decides (R44, R57, R58). -/
theorem trackEdge_eq {k d : Nat} {start : Time} (hp : s.patterns[cfg.pattern] = some p) (hst : p.steps[k]? = some st)
    (hd : d = elapsed stamp start) :
    s.trackEdge c cfg k start level stamp =
      if d < st.min then
        (s.putChannel c (s.channels[c].observe k d)).handleByEdge c
          { kind := .early, step := some k, measured := some d, time := stamp } level stamp
      else if d < st.max then (s.putChannel c (s.channels[c].observe k d)).passStep c cfg p st k d stamp
      else
        (s.putChannel c (s.channels[c].observe k d)).handleByEdge c
          { kind := .late, step := some k, measured := some st.max, time := stamp } level stamp := by
  subst hd
  unfold State.trackEdge
  rw [hp]
  simp only [hst]

/-- Settles O51: the turn passes the step, and the deadline that it places is delivered when it has been reached. -/
theorem anEdgeInTheWindowPassesTheStep : Obligations.AnEdgeInTheWindowPassesTheStep := by
  rintro s c level stamp start due cfg p k next d st st' ch u rfl hopen hk hc hp hst hd hmin hmax hnext hst' hu
  have hput := channels_get_putChannel_self s c (s.channels[c].observe k d)
  have hpass := passStep_eq (s := s.putChannel c (s.channels[c].observe k d)) (c := c) (st := st) (stamp := stamp) d
    (by rw [hput]; exact hc) hp hnext hst'
  have hturn : s.edgeTurn c level stamp = u := by
    rw [edgeTurn_of_tracking (closeByEdge_other s c stamp hopen) hk hc, trackEdge_eq hp hst hd, if_neg (Nat.not_lt.2 hmin),
      if_pos hmax, hpass, hput, passed_eq, hu, ← update_eq]
    simp only [channels_putChannel, Vector.set_set]
    rfl
  have hstate : u.channels[c].state = .tracking next stamp (after stamp (st'.max + s.lines[cfg.line].filter)) := by
    rw [hu]
    exact congrArg Channel.state (channels_get_putChannel_self s c _)
  exact ⟨hturn, fun hr => edgeToChannel_of_ahead hturn hstate (by rw [hu]; exact hr),
    fun _ => stepDeadline_of_edgeTurn hturn⟩

/-! An edge that forms a deviation -/

/-- After the handling of a deviation formed by an edge, a channel that tripped ignores the edge (R65). -/
theorem handleByEdge_of_tripped {dev : Deviation} (h : (s.handleDeviation c dev).channels[c].state = .tripped) :
    s.handleByEdge c dev level stamp = s.handleDeviation c dev := by
  unfold State.handleByEdge
  simp only
  rw [h]

/-- A channel back in SEEKING is offered the edge (R61, R65). -/
theorem handleByEdge_of_seeking {dev : Deviation} {expiry : Option Time}
    (h : (s.handleDeviation c dev).channels[c].state = .seeking expiry) :
    s.handleByEdge c dev level stamp = (s.handleDeviation c dev).syncEdge c level stamp := by
  unfold State.handleByEdge
  simp only
  rw [h]

/-- The handling of a deviation of a configured channel ends in TRIPPED or in SEEKING (R61). -/
theorem handleDeviation_ends (dev : Deviation) (hc : s.channels[c].config = some cfg) :
    (s.handleDeviation c dev).channels[c].state = .tripped ∨
      ∃ expiry, (s.handleDeviation c dev).channels[c].state = .seeking expiry := by
  rw [handleDeviation_state s c dev cfg hc]
  split
  · exact .inl rfl
  · exact .inr ⟨_, rfl⟩

/-- Settles O52: the deviation is handled from the observed record, and then the edge is offered. -/
theorem anEdgeOutsideTheWindowDeviates : Obligations.AnEdgeOutsideTheWindowDeviates := by
  rintro s c level stamp start due cfg p k d st st0 u v w dev hopen hk hc hp hst hd hdev hu hv
  have hobserved : s.putChannel c (s.channels[c].observe k d) = u := hu.symm
  have hconfig : u.channels[c].config = some cfg := by rw [← hobserved, channels_get_putChannel_self]; exact hc
  have hedge : s.edgeTurn c level stamp = u.handleByEdge c dev level stamp := by
    rw [edgeTurn_of_tracking (closeByEdge_other s c stamp hopen) hk hc, trackEdge_eq hp hst hd, hobserved]
    obtain ⟨hearly, rfl⟩ | ⟨hmin, hmax, rfl⟩ := hdev
    · exact if_pos hearly
    · rw [if_neg (Nat.not_lt.2 hmin), if_neg (Nat.not_lt.2 hmax)]
  have hturn : s.TurnOf c v := by
    rw [hv, ← hobserved]
    exact turn_trans (turn_putChannel s c _) (turn_handleDeviation _ c dev)
  have hconfigv : v.channels[c].config = some cfg := by
    obtain ⟨-, -, hkept, -⟩ := handleDeviation_keeps u c dev
    rw [hv]
    exact hkept.trans hconfig
  have hpattern : v.patterns[cfg.pattern] = some p := by rw [hturn.patterns]; exact hp
  have hends := handleDeviation_ends dev hconfig
  rw [← hv] at hends
  refine ⟨fun hignored => ?_, fun hnot hlevel hst0 hw => ?_⟩
  · have hsame : s.edgeTurn c level stamp = v := by
      obtain htripped | ⟨expiry, hseeking⟩ := hends
      · rw [hedge, handleByEdge_of_tripped (by rw [← hv]; exact htripped), hv]
      · have hother : level ≠ p.startLevel := hignored.resolve_left (by rw [hseeking]; nofun)
        rw [hedge, handleByEdge_of_seeking (by rw [← hv]; exact hseeking), ← hv]
        exact syncEdge_other hconfigv hpattern hother
    refine ⟨hsame, edgeToChannel_of_not_tracking hsame fun k start due => ?_⟩
    obtain h | ⟨expiry, h⟩ := hends <;> rw [h] <;> nofun
  · obtain ⟨expiry, hseeking⟩ := hends.resolve_left hnot
    have hplaced : s.edgeTurn c level stamp = w := by
      rw [hedge, handleByEdge_of_seeking (by rw [← hv]; exact hseeking), ← hv, hlevel, syncEdge_start hconfigv hpattern hst0,
        hturn.lines, hw]
      rfl
    have hstate : w.channels[c].state = .tracking 0 stamp (after stamp (st0.max + s.lines[cfg.line].filter)) := by
      rw [hw]
      exact congrArg Channel.state (channels_get_putChannel_self v c _)
    have htime : w.time = s.time := by rw [hw]; exact hturn.time
    exact ⟨hplaced, fun hr => edgeToChannel_of_ahead hplaced hstate (by rw [htime]; exact hr),
      fun _ => stepDeadline_of_edgeTurn hplaced⟩

end Sys2Proof.Machine

/-! The handling of a deviation written out: the strike, the record, and then the notice and SEEKING, or the trip (R61 to R68). -/

namespace Sys2Proof.Machine

variable {s : State} {c : Fin 8} {cfg : ChannelConfig} {dev : Deviation}

/-- The count of one kind rises, and the three others stay (R61 stage 2). -/
theorem bump_eq (n : DeviationCounts) (kind : DeviationKind) :
    n.bump kind =
      { early := if kind = .early then satSucc n.early else n.early
        late := if kind = .late then satSucc n.late else n.late
        noSignal := if kind = .noSignal then satSucc n.noSignal else n.noSignal
        injected := if kind = .injected then satSucc n.injected else n.injected } := by
  cases kind <;> rfl

/-- The entries that name a source, counted index by index (R82). -/
theorem reactionCount_eq (s : State) (src : Source) :
    s.reactionCount src = (List.finRange 32).countP fun i => s.reactions[i].any fun r => r.source = src := by
  have hlist : s.reactions.toList = (List.finRange 32).map fun i => s.reactions[i] :=
    List.ext_getElem (by simp) (by simp)
  unfold State.reactionCount
  rw [hlist, List.countP_map]
  refine List.countP_congr fun i _ => ?_
  rw [Function.comp_apply]
  cases s.reactions[i] <;> rfl

/-- A report changes the Notice Queue and nothing else (R63, R64). -/
theorem reported_putChannel (s : State) (c : Fin 8) (x : Channel) (b : Bool) (t : Time) (src : NoticeSource)
    (body : NoticeBody) :
    (if b then (s.putChannel c x).offer t src body else s.putChannel c x) =
      State.putChannel { s with queue := if b = true then s.queue.offer t src body else s.queue } c x := by
  cases b <;> rfl

theorem seek_putChannel {x : Channel} (hx : x.config = some cfg) :
    (s.putChannel c x).seek c = s.putChannel c { x with state := .seeking (cfg.acquire.map (after s.time)) } := by
  have hput := channels_get_putChannel_self s c x
  rw [seek_of_configured ((congrArg Channel.config hput).trans hx), hput, putChannel_putChannel]
  rfl

/-- Below the strike limit: the struck channel is back in SEEKING, and the notice is offered when the mask asks for it. -/
theorem handleDeviation_below_limit (hc : s.channels[c].config = some cfg)
    (h : s.channels[c].strikes + 1 ≠ cfg.strikeLimit) :
    s.handleDeviation c dev =
      { s with
        channels := s.channels.set c
          { s.channels[c].struck dev with state := .seeking (cfg.acquire.map (after s.time)) }
        queue :=
          if reports cfg.report dev.kind = true then
            s.queue.offer dev.time (.trip (.channel c))
              (.deviation dev.kind dev.step dev.measured (s.channels[c].strikes + 1))
          else s.queue } := by
  rw [handleDeviation_seek s c dev cfg hc h, reported_putChannel,
    seek_putChannel (x := s.channels[c].struck dev) hc]
  rfl

/-- A trip: TRIPPED, the claims of the channel's entries, and the TRIP notice with their number (R67, R68). -/
theorem tripChannel_eq (s : State) (c : Fin 8) (dev : Deviation) :
    s.tripChannel c dev =
      { s.makeClaims (.channel c) with
        channels := s.channels.set c { s.channels[c] with state := .tripped }
        queue := { s.queue with
          notices := s.queue.notices ++
            [{ sequence := s.queue.nextSeq, time := dev.time, source := .trip (.channel c)
               body := .tripChannel dev.kind dev.step dev.measured s.channels[c].strikes
                ((List.finRange 32).countP fun i => s.reactions[i].any fun r => r.source = .channel c) }]
          nextSeq := s.queue.nextSeq + 1 } } := by
  rw [← reactionCount_eq]
  have hoffer := offer_admitted s.queue dev.time (.trip (.channel c))
    (.tripChannel dev.kind dev.step dev.measured s.channels[c].strikes (s.reactionCount (.channel c))) (.inl rfl)
  exact congrArg (fun q : Queue =>
    { s.makeClaims (.channel c) with channels := s.channels.set c { s.channels[c] with state := .tripped }, queue := q }) hoffer

/-- At the strike limit: the struck channel trips. -/
theorem handleDeviation_at_limit (hc : s.channels[c].config = some cfg)
    (h : s.channels[c].strikes + 1 = cfg.strikeLimit) :
    s.handleDeviation c dev =
      { s.makeClaims (.channel c) with
        channels := s.channels.set c { s.channels[c].struck dev with state := .tripped }
        queue := { s.queue with
          notices := s.queue.notices ++
            [{ sequence := s.queue.nextSeq, time := dev.time, source := .trip (.channel c)
               body := .tripChannel dev.kind dev.step dev.measured (s.channels[c].strikes + 1)
                ((List.finRange 32).countP fun i => s.reactions[i].any fun r => r.source = .channel c) }]
          nextSeq := s.queue.nextSeq + 1 } } := by
  rw [handleDeviation_trip s c dev cfg hc h, tripChannel_eq, channels_get_putChannel_self, channels_putChannel, Vector.set_set]
  rfl

/-- Settles O54: the struck record, and then the strikes below the limit or at it. -/
theorem aDeviationStrikesAndMayTrip : Obligations.ADeviationStrikesAndMayTrip := by
  intro s c dev cfg struck hc hstruck
  have hrecord : s.channels[c].struck dev = struck := by
    rw [hstruck, ← bump_eq]
    rfl
  refine ⟨fun h => ?_, fun h => ?_⟩
  · rw [handleDeviation_below_limit hc h, ← hrecord]
    rfl
  · rw [handleDeviation_at_limit hc h, ← hrecord]
    rfl

end Sys2Proof.Machine

/-! INJECT and REARM, as the executor carries them out in RUNNING (R70, R72, R73, R150, R164). -/

namespace Sys2Proof.Machine

variable {s : State} {c : Fin 8}

/-! INJECT -/

/-- The step that an INJECTED deviation records: the one held in TRACKING, and none in SEEKING (R73). -/
theorem inject_eq {step : Option Nat}
    (h : (∃ e, s.channels[c].state = .seeking e) ∧ step = none ∨
      ∃ k start due, s.channels[c].state = .tracking k start due ∧ step = some k) :
    s.inject c = s.handleDeviation c { kind := .injected, step, measured := none, time := s.time } := by
  unfold State.inject
  obtain ⟨⟨e, hk⟩, rfl⟩ | ⟨k, start, due, hk, rfl⟩ := h <;> rw [hk]

theorem injectAnswer_of_running (hd : s.device = .running) :
    injectAnswer [byte c] s =
      if s.channels[c].state.supervising = true then
        .ok [byte c, byte (s.inject c).channels[c].strikes, if (s.inject c).channels[c].state = .tripped then 1 else 0]
          (s.inject c)
      else .refuse .wrongState := by
  refine (oneParam_channel hd c _).trans ?_
  simp only [yesNo, decide_eq_true_eq]

/-- Settles O43: a channel that is not supervising is refused, and a supervising one handles the deviation. -/
theorem injectHandlesADeviation : Obligations.InjectHandlesADeviation := by
  rintro s tag c rest ⟨htakes, hd⟩
  have hanswer := injectAnswer_of_running (s := s.taken rest) (c := c) hd
  refine ⟨fun hignores => ?_, fun step u hstep hu => ?_⟩
  · refine congrArg _ (request_refused htakes (hanswer.trans (if_neg ?_)))
    show ¬s.channels[c].state.supervising = true
    obtain h | h | h := hignores <;> rw [h] <;> exact Bool.false_ne_true
  · have hsupervising : s.channels[c].state.supervising = true :=
      (supervising_iff _).2 (hstep.imp (·.1) fun ⟨k, start, due, hk, _⟩ => ⟨k, start, due, hk⟩)
    have hturn := turn_handleDeviation (s.taken rest) c { kind := .injected, step, measured := none, time := s.time }
    have hinject : (s.taken rest).inject c = u := (inject_eq (s := s.taken rest) hstep).trans hu.symm
    rw [hinject] at hanswer
    exact congrArg _ (request_accepted htakes (hanswer.trans (if_pos hsupervising)) (by rw [hu]; exact hturn.link)
      (by rw [hu]; exact hturn.time))

/-! REARM -/

/-- REARM's effect, for either kind of source. -/
def State.rearm (s : State) : Source → State
  | .channel c => s.rearmChannel c
  | .link => s.rearmLink

theorem rearmAnswer_of_running (src : Source) (hd : s.device = .running) :
    rearmAnswer [src.toByte] s =
      if s.sourceTripped src = false then .refuse .wrongState
      else if 0 < tripCount s.queue.notices src then .refuse .noticePending
      else .ok [src.toByte, byte (s.claimCount src)] (s.rearm src) := by
  refine (oneParam_value hd (sourceOf_toByte src) _).trans ?_
  simp only [Bool.not_eq_true', tripPending_iff]
  cases src <;> rfl

/-- A channel that is armed again seeks, with strikes and good run 0 (R72). -/
theorem channel_rearmChannel (s : State) (c : Fin 8) :
    (s.rearmChannel c).channels[c] =
      { s.channels[c] with
        strikes := 0, goodRun := 0
        state := .seeking ((s.channels[c].config.bind (·.acquire)).map (after s.time)) } := by
  unfold State.rearmChannel
  rw [channel_seek, channels_releaseClaims, channels_get_putChannel_self]
  rfl

theorem turn_rearmChannel (s : State) (c : Fin 8) : s.TurnOf c (s.rearmChannel c) :=
  turn_trans (turn_putChannel s c _) (turn_trans (turn_releaseClaims _ c _) (turn_seek _ c))

/-- The claims of the source are released, and the others stay in their order (R72, R83, R150). -/
theorem claims_rearm (s : State) (src : Source) (o : Fin 6) :
    (s.rearm src).claims[o] = s.claims[o].filter fun cl => cl.source ≠ src := by
  cases src with
  | channel c => exact claims_releaseClaims (s.putChannel c { s.channels[c] with strikes := 0, goodRun := 0 }) (.channel c) o
  | link => exact claims_releaseClaims { s with link := _ } .link o

theorem outputs_rearm (s : State) (src : Source) : (s.rearm src).outputs = (s.releaseClaims src).outputs := by
  cases src <;> rfl

theorem channel_rearm (s : State) (src : Source) (c : Fin 8) :
    (s.rearm src).channels[c] =
      if src = .channel c then
        { s.channels[c] with
          strikes := 0, goodRun := 0
          state := .seeking ((s.channels[c].config.bind (·.acquire)).map (after s.time)) }
      else s.channels[c] := by
  cases src with
  | link => rfl
  | channel d =>
    by_cases hd : d = c
    · subst hd
      exact (channel_rearmChannel s d).trans (if_pos rfl).symm
    · exact ((turn_rearmChannel s d).others c hd).trans (if_neg fun h => hd (Source.channel.inj h)).symm

/-- Of the link, at most the state of LINK changes: WATCHING from now, or OFF with a timeout of 0 (R150). -/
theorem link_rearm (s : State) (src : Source) :
    (s.rearm src).link =
      { s.link with source :=
          if src = .link then if s.link.timeout = 0 then .off else .watching (after s.time (s.link.timeout * 1000))
          else s.link.source } := by
  cases src <;> rfl

theorem time_rearm (s : State) (src : Source) : (s.rearm src).time = s.time := by
  cases src <;> rfl

/-- REARM changes claims, outputs, channels and the link; with the link written again, the rest is as before. -/
theorem rearm_rest (s : State) (src : Source) (k : Link) :
    { s.rearm src with link := k } =
      { s with
        claims := (s.rearm src).claims, outputs := (s.rearm src).outputs
        channels := (s.rearm src).channels, link := k } := by
  cases src <;> rfl

/-- An accepted request whose effect leaves the time, and of the link at most changes the state of LINK: the effect, with the
reply in the queue. -/
theorem request_accepted_source {f : Frame} {rest : List Frame} {carryOut : State → Answer} {t : State} {data : List Byte}
    {x : LinkState} (h : s.Takes f rest) (ha : carryOut (s.taken rest) = .ok data t)
    (hl : t.link = { (s.taken rest).link with source := x }) (ht : t.time = s.time) :
    s.request f carryOut = { t with link := { (s.answered rest f.tag data).link with source := x } } := by
  rw [request_of_takes s f rest carryOut h]
  refine (congrArg _ ha).trans ?_
  simp only [State.answer, push_eq, State.answered, State.replied, hl, ht, State.taken]

/-- Settles O29: the three answers of the executor, in the order of the checks. -/
theorem rearmReturnsATrippedSource : Obligations.RearmReturnsATrippedSource := by
  rintro s tag src rest ⟨htakes, hd⟩
  have htripped : (s.taken rest).sourceTripped src = s.sourceTripped src := by cases src <;> rfl
  have hanswer := rearmAnswer_of_running (s := s.taken rest) src hd
  rw [htripped] at hanswer
  refine ⟨fun hnot => congrArg _ (request_refused htakes (hanswer.trans (if_pos hnot))), fun htrip => ?_⟩
  have hanswer := hanswer.trans (if_neg fun h => Bool.false_ne_true (h.symm.trans htrip))
  refine ⟨fun hpending => congrArg _ (request_refused htakes (hanswer.trans (if_pos hpending))), fun hnone => ?_⟩
  have hanswer := hanswer.trans (if_neg (Nat.not_lt.2 (Nat.le_of_eq hnone)))
  exact ⟨_, congrArg Host.Outcome.next (request_accepted_source htakes hanswer (link_rearm (s.taken rest) src)
    (time_rearm (s.taken rest) src)), claims_rearm (s.taken rest) src, outputs_rearm (s.taken rest) src,
    channel_rearm (s.taken rest) src, rfl, rearm_rest (s.taken rest) src _⟩

end Sys2Proof.Machine

/-! An edge at the close of the window beside the step deadline: one state in either order (R66). -/

namespace Sys2Proof.Machine

variable {s : State} {c : Fin 8} {cfg : ChannelConfig} {p : Pattern} {st : PatternStep} {k : Nat} {level : Level}
  {stamp : Time}

/-- The handling of a deviation neither reads nor writes the observed table and the closure (R61). -/
theorem handleDeviation_putChannel (dev : Deviation) (observed : List ObservedEntry) (closure : Option Closure)
    (hc : s.channels[c].config = some cfg) :
    (s.putChannel c { s.channels[c] with observed, closure }).handleDeviation c dev =
      (s.handleDeviation c dev).putChannel c
        { (s.handleDeviation c dev).channels[c] with observed, closure } := by
  have hput := channels_get_putChannel_self s c { s.channels[c] with observed, closure }
  have hconfig : (s.putChannel c { s.channels[c] with observed, closure }).channels[c].config = some cfg :=
    (congrArg Channel.config hput).trans hc
  have hstrikes := congrArg Channel.strikes hput
  by_cases h : s.channels[c].strikes + 1 = cfg.strikeLimit
  · rw [handleDeviation_channel s c dev cfg hc, handleDeviation_at_limit hc h,
      handleDeviation_at_limit hconfig (by rw [hstrikes]; exact h), hput, if_pos h]
    simp only [State.putChannel, Vector.set_set]
    rfl
  · rw [handleDeviation_channel s c dev cfg hc, handleDeviation_below_limit hc h,
      handleDeviation_below_limit hconfig (by rw [hstrikes]; exact h), hput, if_neg h]
    simp only [State.putChannel, Vector.set_set]
    rfl

/-- A channel that a deviation formed by an edge leaves is offered that edge as any other (R61 stage 5, R65). -/
theorem handleByEdge_eq_edgeTurn (dev : Deviation) (hc : s.channels[c].config = some cfg)
    (hopen : s.channels[c].closure = none) :
    s.handleByEdge c dev level stamp = (s.handleDeviation c dev).edgeTurn c level stamp := by
  obtain ⟨-, -, hconfig, hclosure⟩ := handleDeviation_keeps s c dev
  have hcl : (s.handleDeviation c dev).closeByEdge c stamp = s.handleDeviation c dev :=
    closeByEdge_other _ c stamp (by rw [hclosure, hopen]; rfl)
  obtain htripped | ⟨expiry, hseeking⟩ := handleDeviation_ends dev hc
  · rw [handleByEdge_of_tripped htripped, edgeTurn_of_ignores hcl (.inr (.inr htripped))]
  · rw [handleByEdge_of_seeking hseeking, edgeTurn_of_seeking hcl hseeking (hconfig.trans hc)]

/-- The delivery either finds no deadline to deliver, or handles LATE on a configured channel (R18, R49). -/
theorem deliverDeadline_cases (s : State) (c : Fin 8) :
    s.deliverDeadline c = s ∨
      ∃ cfg k start max, s.channels[c].config = some cfg ∧ s.deliverDeadline c = s.lateByDeadline c k start max := by
  unfold State.deliverDeadline
  split
  · next k start due p hk hp =>
    obtain ⟨cfg, hc, -⟩ := patternOf_some hp
    split
    · split
      · exact .inr ⟨cfg, k, start, _, hc, rfl⟩
      · exact .inl rfl
    · exact .inl rfl
  · exact .inl rfl

/-- LATE at the close of step `k`'s window, as the step deadline and an edge at that time both form it (R44, R49). -/
def lateAt (k max : Nat) (start : Time) : Deviation :=
  { kind := .late, step := some k, measured := some max, time := after start max }

/-- After LATE by the deadline the channel has no step, and so no deadline. -/
theorem lateByDeadline_not_tracking (hc : s.channels[c].config = some cfg) (k : Nat) (start : Time) (max : Nat)
    (j : Nat) (t due : Time) : (s.lateByDeadline c k start max).channels[c].state ≠ .tracking j t due := by
  have hput := channels_get_putChannel_self s c
    { s.channels[c] with closure := some { step := k, closing := after start max } }
  obtain h | ⟨expiry, h⟩ := handleDeviation_ends (s := s.putChannel c _) (c := c) (lateAt k max start)
    ((congrArg Channel.config hput).trans hc) <;>
    exact fun ht => nomatch h.symm.trans ht

/-- A second delivery finds no deadline left (R18, R49). -/
theorem deliverDeadline_deliverDeadline (s : State) (c : Fin 8) :
    (s.deliverDeadline c).deliverDeadline c = s.deliverDeadline c := by
  obtain hsame | ⟨cfg, k, start, max, hc, hlate⟩ := deliverDeadline_cases s c
  · rw [hsame, hsame]
  · rw [hlate]
    exact deliverDeadline_of_not_tracking (lateByDeadline_not_tracking hc k start max)

/-- What either order leaves of channel `c` before it is offered the edge: LATE handled, the duration `max` in the observed entry
of step `k`, and no closure held. -/
def State.closedLate (s : State) (c : Fin 8) (k max : Nat) (start : Time) : State :=
  let u := s.handleDeviation c (lateAt k max start)
  u.putChannel c { u.channels[c] with observed := (s.channels[c].observe k max).observed, closure := none }

/-- The handled channel holds no closure, so an edge finds it as it is. -/
theorem closeByEdge_closedLate (s : State) (c : Fin 8) (k max : Nat) (start stamp : Time) :
    (s.closedLate c k max start).closeByEdge c stamp = s.closedLate c k max start :=
  closeByEdge_other _ c stamp (by rw [State.closedLate, channels_get_putChannel_self]; rfl)

section
variable {start due : Time} (hc : s.channels[c].config = some cfg) (hp : s.patterns[cfg.pattern] = some p)
  (hst : p.steps[k]? = some st)
include hc

/-- The deadline first leaves the deadline closure and the observed table as it was (R49, R66). -/
theorem lateByDeadline_eq (max : Nat) :
    s.lateByDeadline c k start max =
      (s.handleDeviation c (lateAt k max start)).putChannel c
        { (s.handleDeviation c (lateAt k max start)).channels[c] with
          observed := s.channels[c].observed, closure := some { step := k, closing := after start max } } :=
  handleDeviation_putChannel (lateAt k max start) s.channels[c].observed _ hc

include hp hst

/-- The deadline first, and then the edge: the closing edge completes the observed table, and then the channel is offered it. -/
theorem edgeTurn_after_deadline :
    (s.lateByDeadline c k start st.max).edgeTurn c level (after start st.max) =
      (s.closedLate c k st.max start).edgeTurn c level (after start st.max) := by
  have hrecord := channels_get_putChannel_self (s.handleDeviation c (lateAt k st.max start)) c
    { (s.handleDeviation c (lateAt k st.max start)).channels[c] with
      observed := s.channels[c].observed, closure := some { step := k, closing := after start st.max } }
  rw [← lateByDeadline_eq hc] at hrecord
  have hturn := turn_lateByDeadline s c k start st.max
  have hconfig : (s.lateByDeadline c k start st.max).channels[c].config = some cfg := by
    rw [hrecord]
    obtain ⟨-, -, hkept, -⟩ := handleDeviation_keeps s c (lateAt k st.max start)
    exact hkept.trans hc
  have hclose := closeByEdge_closing (congrArg Channel.closure hrecord) rfl hconfig (by rw [hturn.patterns]; exact hp) hst
  rw [hrecord, lateByDeadline_eq hc, putChannel_putChannel, ← lateByDeadline_eq hc] at hclose
  exact edgeTurn_of_closed hclose (closeByEdge_closedLate s c k st.max start _)

/-- The edge alone: its duration is max, so LATE is handled from the observed record, and then the channel is offered the edge. -/
theorem edgeTurn_at_close (hlaw : s.PatternLaw) (hk : s.channels[c].state = .tracking k start due)
    (hopen : s.channels[c].closure = none) :
    s.edgeTurn c level (after start st.max) = (s.closedLate c k st.max start).edgeTurn c level (after start st.max) := by
  obtain ⟨-, -, -, hranges⟩ := hlaw.1 cfg.pattern p hp
  obtain ⟨hwindow, hmax⟩ := hranges st (List.mem_of_getElem? hst)
  have hduration : st.max = elapsed (after start st.max) start := (elapsed_after start st.max (by omega)).symm
  have hput := channels_get_putChannel_self s c (s.channels[c].observe k st.max)
  have hobserve : s.channels[c].observe k st.max =
      { s.channels[c] with observed := (s.channels[c].observe k st.max).observed, closure := none } := by
    rw [← hopen]
    rfl
  have hhandled : (s.putChannel c (s.channels[c].observe k st.max)).handleDeviation c (lateAt k st.max start) =
      s.closedLate c k st.max start := by
    rw [hobserve]
    exact handleDeviation_putChannel (lateAt k st.max start) _ none hc
  rw [edgeTurn_of_tracking (closeByEdge_other s c _ (by rw [hopen]; rfl)) hk hc, trackEdge_eq hp hst hduration,
    if_neg (Nat.not_lt.2 (Nat.le_of_lt hwindow)), if_neg (Nat.lt_irrefl _), ← hhandled]
  exact handleByEdge_eq_edgeTurn (lateAt k st.max start) ((congrArg Channel.config hput).trans hc)
    ((congrArg Channel.closure hput).trans hopen)

end

/-- Settles O55: both orders offer the edge to one state, and a delivery of the deadline leaves none for another. -/
theorem edgeAndDeadlineOrdersAgree : Obligations.EdgeAndDeadlineOrdersAgree := by
  intro s c level cfg p st k start hlawful hk hc hp hst hopen
  have hdeliver : s.deliverDeadline c = s.lateByDeadline c k start st.max :=
    (deliverDeadline_of_tracking hc hp hst hk).trans (if_pos (reached_self s.time))
  refine ⟨s.lateByDeadline c k start st.max, congrArg Host.Outcome.next hdeliver, ?_,
    congrArg Host.Outcome.next (deliverDeadline_deliverDeadline _ c)⟩
  exact congrArg (State.deliverDeadline · c)
    ((edgeTurn_after_deadline hc hp hst).trans (edgeTurn_at_close hc hp hst hlawful.patterns hk hopen).symm)

end Sys2Proof.Machine

/-! The law of the claim lists as one equivalence, and the three ways in which a command keeps it: the same claims with the same
sources TRIPPED, a trip, and a release (R81 to R83). -/

namespace Sys2Proof.Machine

variable {s t : State} {src : Source} {o : Fin 6} {c : Fin 8}

/-- Two claims that copy one entry for one output are the same claim (R80). -/
theorem claim_eq_of_copies {cl held : Claim} (hindex : held.index = cl.index)
    (h : s.reactions[cl.index] = some { source := cl.source, output := o, drive := cl.drive, priority := cl.priority })
    (hheld : s.reactions[held.index] =
      some { source := held.source, output := o, drive := held.drive, priority := held.priority }) : held = cl := by
  obtain ⟨i, source, priority, drive⟩ := cl
  obtain ⟨j, source', priority', drive'⟩ := held
  obtain rfl : j = i := hindex
  obtain ⟨rfl, -, rfl, rfl⟩ := Reaction.mk.inj (Option.some.inj (hheld.symm.trans h))
  rfl

/-- The law of the claim lists: a list holds exactly the claims that are backed, each entry once (R81). -/
theorem claimLaw_iff :
    s.ClaimLaw ↔ ∀ o : Fin 6, (∀ cl, cl ∈ s.claims[o] ↔ s.Backed o cl) ∧ (s.claims[o].map (·.index)).Nodup := by
  constructor
  · rintro ⟨hbacked, hentries, hnodup⟩ o
    refine ⟨fun cl => ⟨hbacked o cl, fun hcl => ?_⟩, hnodup o⟩
    obtain ⟨hentry, htripped⟩ := hcl
    obtain ⟨held, hheld, hindex⟩ := List.mem_map.1 (hentries cl.index _ hentry htripped)
    obtain ⟨hcopy, -⟩ := hbacked o held hheld
    rw [← claim_eq_of_copies hindex hentry hcopy]
    exact hheld
  · intro h
    refine ⟨fun o cl hcl => ((h o).1 cl).1 hcl, fun i r hr htripped => ?_, fun o => (h o).2⟩
    have hbacked : s.Backed r.output { index := i, source := r.source, priority := r.priority, drive := r.drive } :=
      ⟨hr, htripped⟩
    exact List.mem_map.2 ⟨_, ((h r.output).1 _).2 hbacked, rfl⟩

/-! The same claims -/

/-- From `s` to `t` the claim lists and the reactions stay, and the same sources are TRIPPED: all that the law of the claims
reads. -/
structure State.SameTrips (s t : State) : Prop where
  claims : t.claims = s.claims
  reactions : t.reactions = s.reactions
  tripped : ∀ src, t.sourceTripped src = s.sourceTripped src

theorem claimLaw_of_sameTrips (hs : s.ClaimLaw) (h : s.SameTrips t) : t.ClaimLaw := by
  rw [claimLaw_iff] at hs ⊢
  unfold State.Backed at hs ⊢
  rw [h.claims, h.reactions]
  simp only [h.tripped]
  exact hs

theorem sourceTripped_channel (s : State) (c : Fin 8) :
    s.sourceTripped (.channel c) = decide (s.channels[c].state = .tripped) := rfl

theorem sourceTripped_link (s : State) : s.sourceTripped .link = decide (s.link.source = .tripped) := rfl

/-- The sources that are TRIPPED follow from the channel states and the state of LINK (R76). -/
theorem sourceTripped_congr (hchannels : ∀ c : Fin 8, t.channels[c].state = .tripped ↔ s.channels[c].state = .tripped)
    (hlink : t.link.source = .tripped ↔ s.link.source = .tripped) (src : Source) :
    t.sourceTripped src = s.sourceTripped src := by
  cases src with
  | channel c => exact decide_eq_decide.2 (hchannels c)
  | link => exact decide_eq_decide.2 hlink

theorem sameTrips_of_eq (hclaims : t.claims = s.claims) (hreactions : t.reactions = s.reactions)
    (hchannels : t.channels = s.channels) (hlink : t.link.source = .tripped ↔ s.link.source = .tripped) :
    s.SameTrips t :=
  ⟨hclaims, hreactions, sourceTripped_congr (fun c => by rw [hchannels]) hlink⟩

/-- In a turn of channel `c` every other source stays TRIPPED or not. -/
theorem sourceTripped_of_turn (h : s.TurnOf c t) (hsrc : src ≠ .channel c) : t.sourceTripped src = s.sourceTripped src := by
  cases src with
  | channel d => rw [sourceTripped_channel, sourceTripped_channel, h.others d fun e => hsrc (by rw [e])]
  | link => rw [sourceTripped_link, sourceTripped_link, h.link]

/-- A turn of a channel that neither trips nor leaves TRIPPED. -/
theorem sameTrips_of_turn (h : s.TurnOf c t) (hclaims : t.claims = s.claims)
    (hstate : t.channels[c].state = .tripped ↔ s.channels[c].state = .tripped) : s.SameTrips t := by
  refine ⟨hclaims, h.reactions, fun src => ?_⟩
  by_cases hsrc : src = .channel c
  · rw [hsrc]
    exact decide_eq_decide.2 hstate
  · exact sourceTripped_of_turn h hsrc

theorem claimLaw_putChannel {x : Channel} (hs : s.ClaimLaw) (hx : x.state = .tripped ↔ s.channels[c].state = .tripped) :
    (s.putChannel c x).ClaimLaw :=
  claimLaw_of_sameTrips hs (sameTrips_of_turn (turn_putChannel s c x) rfl (by rw [channels_get_putChannel_self]; exact hx))

/-! A trip and a release -/

/-- A claim that a trip places carries the index of its entry. -/
theorem index_of_claimFrom {i : Fin 32} {cl : Claim} (h : s.claimFrom src o i = some cl) : cl.index = i := by
  unfold State.claimFrom at h
  split at h
  · split at h
    · rw [← Option.some.inj h]
    · cases h
  · cases h

/-- A trip places one claim for an entry. -/
theorem nodup_newClaims (s : State) (src : Source) (o : Fin 6) : ((s.newClaims src o).map (·.index)).Nodup := by
  unfold State.newClaims
  rw [List.map_filterMap]
  refine (List.nodup_finRange 32).filterMap fun i j index hi hj => ?_
  obtain ⟨cl, hcl, rfl⟩ := Option.map_eq_some_iff.1 hi
  obtain ⟨cl', hcl', hindex⟩ := Option.map_eq_some_iff.1 hj
  rw [← index_of_claimFrom hcl, ← index_of_claimFrom hcl', hindex]

/-- A source that was not TRIPPED trips, and its claims are appended to each list (R82). -/
theorem claimLaw_of_trip (hs : s.ClaimLaw) (hbefore : s.sourceTripped src = false)
    (hclaims : ∀ o : Fin 6, t.claims[o] = s.claims[o] ++ s.newClaims src o) (hreactions : t.reactions = s.reactions)
    (hafter : t.sourceTripped src = true) (hothers : ∀ x, x ≠ src → t.sourceTripped x = s.sourceTripped x) :
    t.ClaimLaw := by
  rw [claimLaw_iff] at hs ⊢
  intro o
  obtain ⟨hmem, hnodup⟩ := hs o
  have hold {cl : Claim} (hcl : cl ∈ s.claims[o]) : cl.source ≠ src := by
    rintro rfl
    obtain ⟨-, htripped⟩ := (hmem cl).1 hcl
    rw [hbefore] at htripped
    cases htripped
  rw [hclaims o]
  refine ⟨fun cl => ?_, ?_⟩
  · rw [List.mem_append, mem_newClaims]
    unfold State.Backed
    rw [hreactions]
    by_cases hsrc : cl.source = src
    · have hnew : cl ∉ s.claims[o] := fun h => hold h hsrc
      simp only [hnew, false_or, hsrc, hafter, and_true]
    · rw [hmem cl, hothers _ hsrc]
      unfold State.Backed
      simp only [hsrc, and_false, or_false]
  · rw [List.map_append]
    refine hnodup.append (nodup_newClaims s src o) fun index hin hnew => ?_
    obtain ⟨cl, hcl, rfl⟩ := List.mem_map.1 hin
    obtain ⟨new, hnew, hindex⟩ := List.mem_map.1 hnew
    obtain ⟨hentry, rfl⟩ := (mem_newClaims s src o new).1 hnew
    obtain ⟨hcopy, -⟩ := (hmem cl).1 hcl
    exact hold hcl (congrArg Claim.source (claim_eq_of_copies hindex hcopy hentry)).symm

/-- A source leaves TRIPPED, and its claims are removed from each list (R83). -/
theorem claimLaw_of_release (hs : s.ClaimLaw)
    (hclaims : ∀ o : Fin 6, t.claims[o] = s.claims[o].filter fun cl => cl.source ≠ src)
    (hreactions : t.reactions = s.reactions) (hafter : t.sourceTripped src = false)
    (hothers : ∀ x, x ≠ src → t.sourceTripped x = s.sourceTripped x) : t.ClaimLaw := by
  rw [claimLaw_iff] at hs ⊢
  intro o
  obtain ⟨hmem, hnodup⟩ := hs o
  rw [hclaims o]
  refine ⟨fun cl => ?_, hnodup.sublist (List.filter_sublist.map _)⟩
  rw [List.mem_filter, hmem cl]
  unfold State.Backed
  rw [hreactions]
  by_cases hsrc : cl.source = src
  · simp [hsrc, hafter]
  · simp [hsrc, hothers _ hsrc]

/-! No claim and nothing TRIPPED -/

/-- No claim is held and no source is TRIPPED, as outside RUNNING. -/
structure State.Untripped (s : State) : Prop where
  claims : ∀ o : Fin 6, s.claims[o] = []
  channels : ∀ c : Fin 8, s.channels[c].state ≠ .tripped
  link : s.link.source ≠ .tripped

theorem not_sourceTripped (h : s.Untripped) (src : Source) : s.sourceTripped src = false := by
  cases src with
  | channel c => rw [sourceTripped_channel]; exact decide_eq_false (h.channels c)
  | link => rw [sourceTripped_link]; exact decide_eq_false h.link

theorem claimLaw_of_untripped (h : s.Untripped) : s.ClaimLaw := by
  have hnone := not_sourceTripped h
  refine ⟨fun o cl hcl => ?_, fun i r _ htripped => ?_, fun o => ?_⟩
  · rw [h.claims o] at hcl; cases hcl
  · rw [hnone] at htripped; cases htripped
  · rw [h.claims o]; exact List.nodup_nil

theorem untripped_of_cleared {pin : Fin 8 → Level} (h : t.Cleared pin) : t.Untripped := by
  have hidle := idle_of_cleared h
  obtain ⟨-, -, -, -, -, -, hclaims, -, -, -, hlink⟩ := h
  exact ⟨hclaims, fun c => by rw [hidle c]; nofun, by rw [hlink]; nofun⟩

theorem untripped_of_asleep (h : s.Asleep) : s.Untripped := by
  refine ⟨fun o => (h.outputs o).1, fun c => ?_, by rw [h.link]; nofun⟩
  obtain ⟨hidle, -⟩ := h.channels c
  rw [hidle]
  nofun

end Sys2Proof.Machine

/-! What the Channel Engine does on an edge, an expiry or a new filter time, as a list of acts that say how each touches a
channel's state: only the handling of a deviation can trip a channel. -/

namespace Sys2Proof.Machine

/-- `t` comes from `s` by writing records of lines, and of channels that keep their state or go on supervising, by handling
deviations of supervising channels, by offering MARK notices and by using free choices. -/
inductive State.Supervises (s : State) : State → Prop
  | refl : s.Supervises s
  | line {t : State} (l : Fin 8) (x : Line) (h : s.Supervises t) : s.Supervises (t.putLine l x)
  | record {t : State} {c : Fin 8} {x : Channel}
      (hx : x.state = t.channels[c].state ∨ t.channels[c].state.supervising = true ∧ x.state.supervising = true)
      (h : s.Supervises t) : s.Supervises (t.putChannel c x)
  | deviation {t : State} {c : Fin 8} (dev : Deviation) (hk : t.channels[c].state.supervising = true)
      (h : s.Supervises t) : s.Supervises (t.handleDeviation c dev)
  | mark {t : State} (now : Time) (c : Fin 8) (k d : Nat) (cycles : Count32) (h : s.Supervises t) :
      s.Supervises (t.offer now (.trip (.channel c)) (.mark k d cycles))
  | choose {t : State} (n : Nat) (h : s.Supervises t) : s.Supervises { t with draws := n }

variable {s t : State} {c : Fin 8}

theorem supervises_enterStep (k : Nat) (stamp : Time) (hk : t.channels[c].state.supervising = true)
    (h : s.Supervises t) : s.Supervises (t.enterStep c k stamp) := by
  unfold State.enterStep
  split
  · exact h
  · split
    · exact h
    · exact .record (.inr ⟨hk, rfl⟩) h

theorem supervises_syncEdge (level : Level) (stamp : Time) (hk : t.channels[c].state.supervising = true)
    (h : s.Supervises t) : s.Supervises (t.syncEdge c level stamp) := by
  unfold State.syncEdge
  split
  · exact h
  · split
    · exact supervises_enterStep 0 stamp hk h
    · exact h

/-- A channel back in SEEKING after its deviation is offered the edge (R65). -/
theorem supervises_handleByEdge (dev : Deviation) (level : Level) (stamp : Time)
    (hk : t.channels[c].state.supervising = true) (h : s.Supervises t) :
    s.Supervises (t.handleByEdge c dev level stamp) := by
  have hdev := State.Supervises.deviation dev hk h
  unfold State.handleByEdge
  simp only
  split
  · next hseeking => exact supervises_syncEdge level stamp (by rw [hseeking]; rfl) hdev
  · exact hdev

theorem supervises_passStep (cfg : ChannelConfig) (p : Pattern) (st : PatternStep) (k d : Nat) (stamp : Time)
    (hk : t.channels[c].state.supervising = true) (h : s.Supervises t) :
    s.Supervises (t.passStep c cfg p st k d stamp) := by
  have hadvance (u : State) (hu : s.Supervises u) (hku : u.channels[c].state.supervising = true) :
      s.Supervises
        (if k + 1 = p.steps.length then (u.putChannel c (u.channels[c].completeCycle cfg.forgive)).enterStep c 0 stamp
        else u.enterStep c (k + 1) stamp) := by
    split
    · refine supervises_enterStep 0 stamp ?_ (.record (.inl (state_completeCycle _ _)) hu)
      rw [channels_get_putChannel_self, state_completeCycle]
      exact hku
    · exact supervises_enterStep (k + 1) stamp hku hu
  unfold State.passStep
  by_cases hmark : (st.mark && reportsMark cfg.report) = true
  · simp only [hmark, if_true]
    exact hadvance _ (.mark _ c _ _ _ h) hk
  · simp only [hmark]
    exact hadvance _ h hk

theorem supervises_trackEdge (cfg : ChannelConfig) (k : Nat) (start : Time) (level : Level) (stamp : Time)
    (hk : t.channels[c].state.supervising = true) (h : s.Supervises t) :
    s.Supervises (t.trackEdge c cfg k start level stamp) := by
  unfold State.trackEdge
  split
  · exact h
  · split
    · exact h
    · have hput : s.Supervises (t.putChannel c (t.channels[c].observe k (elapsed stamp start))) := .record (.inl rfl) h
      have hkput : (t.putChannel c (t.channels[c].observe k (elapsed stamp start))).channels[c].state.supervising = true := by
        rw [channels_get_putChannel_self]; exact hk
      simp only
      split
      · exact supervises_handleByEdge _ level stamp hkput hput
      · split
        · exact supervises_passStep cfg _ _ k _ stamp hkput hput
        · exact supervises_handleByEdge _ level stamp hkput hput

theorem supervises_closeByEdge (stamp : Time) (h : s.Supervises t) : s.Supervises (t.closeByEdge c stamp) := by
  unfold State.closeByEdge
  split
  · split
    · split
      · exact .record (.inl rfl) h
      · exact h
    · exact h
  · exact h

theorem supervises_edgeTurn (level : Level) (stamp : Time) (h : s.Supervises t) :
    s.Supervises (t.edgeTurn c level stamp) := by
  have hclose := supervises_closeByEdge (c := c) stamp h
  unfold State.edgeTurn
  simp only
  split
  · next hk => exact supervises_syncEdge level stamp (by rw [hk]; rfl) hclose
  · next hk => exact supervises_trackEdge _ _ _ level stamp (by rw [hk]; rfl) hclose
  · exact hclose

/-- A delivered deadline leaves a closure and is LATE (R49, R59, R66). -/
theorem supervises_deliverDeadline (h : s.Supervises t) : s.Supervises (t.deliverDeadline c) := by
  unfold State.deliverDeadline
  split
  · next hk _ =>
    split
    · split
      · exact .deviation _ (by rw [channels_get_putChannel_self, hk]; rfl) (.record (.inl rfl) h)
      · exact h
    · exact h
  · exact h

theorem supervises_moveDeadline (h : s.Supervises t) : s.Supervises (t.moveDeadline c) := by
  unfold State.moveDeadline
  split
  · next hk _ =>
    split
    · exact h
    · exact supervises_deliverDeadline (.record (.inr ⟨by rw [hk]; rfl, rfl⟩) h)
  · exact h

/-! The channels of a line, in whatever order they act -/

theorem supervises_foldl {α : Type} {f : α → State → State}
    (hf : ∀ (x : α) (u : State), s.Supervises u → s.Supervises (f x u)) (xs : List α) (h : s.Supervises t) :
    s.Supervises (xs.foldl (fun u x => f x u) t) := by
  induction xs generalizing t with
  | nil => exact h
  | cons x xs ih => exact ih (hf x t h)

theorem supervises_deliverEdge (l : Fin 8) (level : Level) (stamp : Time) (h : s.Supervises t) :
    s.Supervises (t.deliverEdge l level stamp) :=
  inSomeOrder_induct s.Supervises t _ _ h (.choose _ h) fun _ _ _ hu =>
    supervises_deliverDeadline (supervises_edgeTurn level stamp hu)

theorem supervises_handOnFilter (l : Fin 8) (h : s.Supervises t) : s.Supervises (t.handOnFilter l) :=
  inSomeOrder_induct s.Supervises t _ _ h (.choose _ h) fun _ _ _ hu => supervises_moveDeadline hu

theorem supervises_edgeThenFilter (l : Fin 8) (level : Level) (stamp : Time) (h : s.Supervises t) :
    s.Supervises (t.edgeThenFilter l level stamp) := by
  obtain ⟨ts, -, he⟩ := inTwoTurns_order t _ (nodup_channelsOf t l) fun d second u => u.lineTurn level stamp d second
  rw [edgeThenFilter_eq, he]
  refine supervises_foldl (fun (d, second) u hu => ?_) ts (.choose _ h)
  cases second with
  | false => exact supervises_edgeTurn level stamp hu
  | true => exact supervises_moveDeadline hu

theorem supervises_acceptEdge (l : Fin 8) (stamp : Time) (h : s.Supervises t) : s.Supervises (t.acceptEdge l stamp) :=
  supervises_deliverEdge l _ stamp (.line l _ h)

/-! The commands of a line -/

/-- SET_LINE's edge and new filter time reach the channels of the line (R25, R26). -/
theorem supervises_setFilter (s : State) (l : Fin 8) (f : Nat) (clear : Bool) : s.Supervises (s.setFilter l f clear).1 := by
  have hclear (u : State) (hu : s.Supervises u) :
      s.Supervises (if clear then u.putLine l { u.lines[l] with runts := 0, edges := 0 } else u) := by
    split
    · exact .line l _ hu
    · exact hu
  unfold State.setFilter
  simp only
  apply hclear
  split
  · split
    · exact supervises_edgeThenFilter l _ _ (.line l _ (.line l _ .refl))
    · exact supervises_handOnFilter l (.line l _ .refl)
  · exact supervises_handOnFilter l (.line l _ .refl)

theorem supervises_rawChange {l : Fin 8} {level : Level} (h : exec (.rawChange l level) s = .next t) : s.Supervises t := by
  by_cases hsample : s.device = .running ∧ s.lines[l].sampled = false
  · obtain ⟨hd, hsampled⟩ := hsample
    by_cases hlevel : level = s.lines[l].raw
    · rw [rawChange_same hd hsampled hlevel] at h
      obtain rfl := Host.Outcome.next.inj h
      exact .line l _ .refl
    · rw [rawChange_differs hd hsampled hlevel] at h
      obtain rfl := Host.Outcome.next.inj h
      split
      · exact .line l _ .refl
      · split
        · exact supervises_acceptEdge l _ (.line l _ .refl)
        · exact .line l _ .refl
  · rw [rawChange_unsampled hsample] at h
    obtain rfl := Host.Outcome.next.inj h
    exact .line l _ .refl

theorem supervises_qualificationExpiry {l : Fin 8} (h : execQualificationExpiry l s = .next t) : s.Supervises t := by
  obtain rfl := Host.Outcome.next.inj h
  split
  · split
    · exact supervises_acceptEdge l _ .refl
    · exact .refl
  · exact .refl

/-! The commands of a channel that supervises -/

theorem supervises_acquireExpiry (h : execAcquireExpiry c s = .next t) : s.Supervises t := by
  obtain rfl := Host.Outcome.next.inj h
  split
  · next hk =>
    split
    · exact .deviation _ (by rw [hk]; rfl) .refl
    · exact .refl
  · exact .refl

theorem supervises_inject (hk : s.channels[c].state.supervising = true) : s.Supervises (s.inject c) :=
  .deviation _ hk .refl

end Sys2Proof.Machine

/-! The claims through trips, releases, requests, events and time: every step keeps their law (R81). -/

namespace Sys2Proof.Machine

variable {s t : State} {c : Fin 8}

/-! Trips -/

theorem not_tripped_of_supervising {x : ChannelState} (h : x.supervising = true) : x ≠ .tripped := by
  rintro rfl
  cases h

/-- A deviation of a channel that is not TRIPPED either trips it, with its claims, or leaves the claims as they are (R67). -/
theorem claimLaw_handleDeviation (dev : Deviation) (hn : s.channels[c].state ≠ .tripped) (hs : s.ClaimLaw) :
    (s.handleDeviation c dev).ClaimLaw := by
  cases hc : s.channels[c].config with
  | none =>
    have he : s.handleDeviation c dev = s := by unfold State.handleDeviation; rw [hc]
    rw [he]
    exact hs
  | some cfg =>
    have hstate := handleDeviation_state s c dev cfg hc
    have hturn := turn_handleDeviation s c dev
    by_cases hlimit : s.channels[c].strikes + 1 = cfg.strikeLimit
    · rw [if_pos hlimit] at hstate
      refine claimLaw_of_trip (src := .channel c) hs (decide_eq_false hn) (fun o => ?_) hturn.reactions
        (decide_eq_true hstate) fun _ => sourceTripped_of_turn hturn
      rw [handleDeviation_at_limit hc hlimit]
      exact claims_makeClaims s (.channel c) o
    · rw [if_neg hlimit] at hstate
      refine claimLaw_of_sameTrips hs (sameTrips_of_turn hturn ?_ (by simp only [hstate, hn, reduceCtorEq]))
      rw [handleDeviation_below_limit hc hlimit]

theorem claimLaw_of_eq (hs : s.ClaimLaw) (hclaims : t.claims = s.claims) (hreactions : t.reactions = s.reactions)
    (hchannels : t.channels = s.channels) (hlink : t.link.source = s.link.source) : t.ClaimLaw :=
  claimLaw_of_sameTrips hs (sameTrips_of_eq hclaims hreactions hchannels (by rw [hlink]))

/-- The Channel Engine keeps the law of the claims on every edge and expiry. -/
theorem claimLaw_of_supervises (h : s.Supervises t) (hs : s.ClaimLaw) : t.ClaimLaw := by
  induction h with
  | refl => exact hs
  | line l x _ ih => exact claimLaw_of_eq ih rfl rfl rfl rfl
  | record hx _ ih =>
    refine claimLaw_putChannel ih ?_
    obtain hsame | ⟨hbefore, hafter⟩ := hx
    · rw [hsame]
    · exact iff_of_false (not_tripped_of_supervising hafter) (not_tripped_of_supervising hbefore)
  | deviation dev hk _ ih => exact claimLaw_handleDeviation dev (not_tripped_of_supervising hk) ih
  | mark now c k d cycles _ ih => exact claimLaw_of_eq ih rfl rfl rfl rfl
  | choose n _ ih => exact claimLaw_of_eq ih rfl rfl rfl rfl

/-- LINK outside TRIPPED trips (R148). -/
theorem claimLaw_tripLink (hn : s.link.source ≠ .tripped) (hs : s.ClaimLaw) : s.tripLink.ClaimLaw := by
  refine claimLaw_of_trip (src := .link) hs (decide_eq_false hn)
    (fun o => claims_makeClaims { s with link := { s.link with source := .tripped } } .link o) rfl rfl fun x hx => ?_
  cases x with
  | channel c => rfl
  | link => exact absurd rfl hx

/-! Releases -/

/-- A channel outside TRIPPED enters SEEKING. -/
theorem claimLaw_seek (hn : s.channels[c].state ≠ .tripped) (hs : s.ClaimLaw) : (s.seek c).ClaimLaw :=
  claimLaw_putChannel hs (iff_of_false nofun hn)

/-- ARM is carried out in IDLE, and so outside TRIPPED (R36). -/
theorem claimLaw_armChannel (hn : s.channels[c].state ≠ .tripped) (hs : s.ClaimLaw) : (s.armChannel c).ClaimLaw :=
  claimLaw_of_sameTrips hs
    (sameTrips_of_turn (turn_armChannel s c) rfl (iff_of_false (by rw [channel_armChannel]; nofun) hn))

/-- DISARM releases the claims exactly when the channel leaves TRIPPED (R40, R83). -/
theorem claimLaw_disarm (c : Fin 8) (hs : s.ClaimLaw) : (s.disarm c).ClaimLaw := by
  unfold State.disarm
  have hput := channels_get_putChannel_self s c { s.channels[c] with state := .idle, strikes := 0, goodRun := 0 }
  have hturn := turn_putChannel s c { s.channels[c] with state := .idle, strikes := 0, goodRun := 0 }
  simp only
  split
  · exact hs
  · split
    · exact claimLaw_of_release (src := .channel c) hs
        (fun o => claims_releaseClaims (s.putChannel c _) (.channel c) o) rfl
        (decide_eq_false (by rw [channels_releaseClaims, hput]; nofun))
        fun _ => sourceTripped_of_turn (turn_trans hturn (turn_releaseClaims _ c _))
    · next hn => exact claimLaw_putChannel hs (iff_of_false nofun hn)

/-- REARM releases the claims of its source, which leaves TRIPPED (R72, R150). -/
theorem claimLaw_rearm (src : Source) (hs : s.ClaimLaw) : (s.rearm src).ClaimLaw := by
  refine claimLaw_of_release (src := src) hs (claims_rearm s src) (by cases src <;> rfl) ?_ fun x hx => ?_
  · cases src with
    | channel c => exact decide_eq_false (by rw [channel_rearm, if_pos rfl]; nofun)
    | link =>
      refine decide_eq_false ?_
      rw [link_rearm, if_pos rfl]
      simp only
      split <;> nofun
  · cases x with
    | channel d => rw [sourceTripped_channel, channel_rearm, if_neg (Ne.symm hx), sourceTripped_channel]
    | link => rw [sourceTripped_link, link_rearm, if_neg (Ne.symm hx), sourceTripped_link]

/-! SET_REACTION -/

/-- Neither the present source of the entry nor its new one is TRIPPED, so no claim is of the entry (R77, R81). -/
theorem claimLaw_putReaction {i : Fin 32} {new : Option Reaction} (hs : s.ClaimLaw)
    (hold : s.reactionTripped s.reactions[i] = false) (hnew : s.reactionTripped new = false) :
    (s.putReaction i new).ClaimLaw := by
  rw [claimLaw_iff] at hs ⊢
  intro o
  obtain ⟨hmem, hnodup⟩ := hs o
  refine ⟨fun cl => (hmem cl).trans ?_, hnodup⟩
  by_cases hi : i = cl.index
  · have hput := reactions_get_putReaction_self s i new
    subst hi
    refine iff_of_false (fun ⟨hentry, htripped⟩ => ?_) fun ⟨hentry, htripped⟩ => ?_
    · rw [hentry] at hold
      exact Bool.false_ne_true (hold.symm.trans htripped)
    · rw [hput] at hentry
      rw [hentry] at hnew
      exact Bool.false_ne_true (hnew.symm.trans htripped)
  · unfold State.Backed
    rw [reactions_get_putReaction_ne s i cl.index new hi]
    rfl

/-! The link -/

/-- From `k` to `j` LINK neither trips nor leaves TRIPPED. -/
def Link.SameTrip (k j : Link) : Prop := j.source = .tripped ↔ k.source = .tripped

theorem claimLaw_withLink {k : Link} (hs : s.ClaimLaw) (hk : s.link.SameTrip k) : ({ s with link := k } : State).ClaimLaw :=
  claimLaw_of_sameTrips hs (sameTrips_of_eq rfl rfl rfl hk)

section
variable (k : Link) (now : Time)

theorem sameTrip_refl : k.SameTrip k := Iff.rfl

theorem sameTrip_restart : k.SameTrip (k.restart now) := by
  unfold Link.restart
  split
  · next hwatching => exact iff_of_false nofun (by rw [hwatching]; nofun)
  · exact sameTrip_refl k

theorem sameTrip_enqueue (f : Frame) : k.SameTrip (k.enqueue now f) := by
  unfold Link.enqueue
  split
  · exact sameTrip_refl k
  · simp only
    split
    · exact sameTrip_refl k
    · exact sameTrip_refl k

theorem sameTrip_goodFrame (f : Frame) : k.SameTrip (k.goodFrame now f) :=
  (sameTrip_enqueue _ now f).trans (sameTrip_restart k now)

theorem sameTrip_complete (covered : List Byte) (hi lo : Byte) : k.SameTrip (k.complete now covered hi lo) := by
  unfold Link.complete
  split
  · split
    · exact sameTrip_goodFrame { k with receiver := .hunting } now _
    · exact sameTrip_refl k
  · exact sameTrip_refl k

/-- A byte moves the receiver, and at most completes a frame (R139, R141). -/
theorem sameTrip_receive (b : Byte) : k.SameTrip (k.receive now b) := by
  unfold Link.receive
  simp only
  split
  · split
    · exact sameTrip_refl k
    · exact sameTrip_refl k
  · split
    · exact sameTrip_refl k
    · exact sameTrip_refl k
  · split
    · exact sameTrip_refl k
    · exact sameTrip_refl k
  · exact sameTrip_complete k now _ _ b
  · exact sameTrip_refl k

/-- SET_LINK leaves LINK in TRIPPED, and does not bring it there (R149). -/
theorem sameTrip_setTimeout (n : Nat) : k.SameTrip (k.setTimeout now n) := by
  unfold Link.SameTrip Link.setTimeout
  simp only
  split
  · next htripped => exact iff_of_true rfl htripped
  · next hnot =>
    refine iff_of_false ?_ hnot
    split <;> nofun

end

/-! Requests -/

/-- The effect of an answer keeps the law of the claims; a refusal has no effect. -/
def Answer.ClaimsLawful : Answer → Prop
  | .refuse _ => True
  | .ok _ t => t.ClaimLaw
  | .okThenReset t => t.ClaimLaw

theorem claimLaw_answer (tag : Byte) {a : Answer} (hs : s.ClaimLaw) (h : a.ClaimsLawful) : (s.answer tag a).ClaimLaw := by
  cases a with
  | refuse status => exact claimLaw_withLink hs (sameTrip_refl _)
  | ok data t => exact claimLaw_withLink (s := t) h (sameTrip_refl _)
  | okThenReset t => exact claimLaw_withLink (s := t) h (sameTrip_refl _)

/-- A request keeps the law of the claims when what the executor carries out keeps it. -/
theorem claimLaw_request (f : Frame) {carryOut : State → Answer} (hs : s.ClaimLaw)
    (h : ∀ u : State, u.ClaimLaw → (carryOut u).ClaimsLawful) : (s.request f carryOut).ClaimLaw := by
  obtain ⟨-, he⟩ | ⟨-, l, hl, hcase⟩ := request_cases s f carryOut
  · rw [he]; exact hs
  · have hlink : s.link.SameTrip l := by
      obtain ⟨-, rfl⟩ | ⟨-, rfl⟩ := hl
      · exact sameTrip_refl _
      · exact sameTrip_goodFrame s.link s.time f
    obtain he | ⟨rest, -, -, he⟩ := hcase
    · rw [he]; exact claimLaw_withLink hs hlink
    · have htaken : ({ s with link := { l with inbox := rest } } : State).ClaimLaw := claimLaw_withLink hs hlink
      rw [he]
      exact claimLaw_answer f.tag htaken (h _ htaken)

theorem claimsLawful_whenRunning {a : Answer} (h : a.ClaimsLawful) : (whenRunning s a).ClaimsLawful := by
  unfold whenRunning
  split
  · exact h
  · trivial

theorem claimsLawful_noParams (params : List Byte) {a : Answer} (h : a.ClaimsLawful) : (noParams params a).ClaimsLawful := by
  unfold noParams
  split
  · exact h
  · trivial

theorem claimsLawful_oneParam {α : Type} (params : List Byte) {parse : Byte → Option α} {k : α → Answer}
    (h : ∀ x, (k x).ClaimsLawful) : (oneParam params s parse k).ClaimsLawful := by
  unfold oneParam
  split
  · split
    · exact claimsLawful_whenRunning (h _)
    · trivial
  · trivial

/-! Requests of the channels and the sources -/

variable (params : List Byte)

theorem claimsLawful_configureChannelAnswer (hs : s.ClaimLaw) : (configureChannelAnswer params s).ClaimsLawful := by
  unfold configureChannelAnswer
  split
  · split
    · refine claimsLawful_whenRunning ?_
      split
      · trivial
      · split
        · trivial
        · exact claimLaw_putChannel hs Iff.rfl
    · trivial
  · trivial

theorem claimsLawful_clearChannelAnswer (hs : s.ClaimLaw) : (clearChannelAnswer params s).ClaimsLawful := by
  refine claimsLawful_oneParam params fun c => ?_
  split
  · trivial
  · split
    · trivial
    · exact claimLaw_putChannel hs Iff.rfl

theorem claimsLawful_armAnswer (hs : s.ClaimLaw) : (armAnswer params s).ClaimsLawful := by
  refine claimsLawful_oneParam params fun c => ?_
  split
  · trivial
  · next hidle =>
    have hi : s.channels[c].state = .idle := by simpa [isIdle_iff] using hidle
    split
    · trivial
    · split
      · trivial
      · exact claimLaw_armChannel (by rw [hi]; nofun) hs

theorem claimsLawful_pauseAnswer (hs : s.ClaimLaw) : (pauseAnswer params s).ClaimsLawful := by
  refine claimsLawful_oneParam params fun c => ?_
  split
  · next hk => exact claimLaw_putChannel hs (iff_of_false nofun (not_tripped_of_supervising hk))
  · trivial

theorem claimsLawful_resumeAnswer (hs : s.ClaimLaw) : (resumeAnswer params s).ClaimsLawful := by
  refine claimsLawful_oneParam params fun c => ?_
  split
  · next hpaused => exact claimLaw_seek (by rw [hpaused]; nofun) hs
  · trivial

theorem claimsLawful_injectAnswer (hs : s.ClaimLaw) : (injectAnswer params s).ClaimsLawful := by
  refine claimsLawful_oneParam params fun c => ?_
  split
  · next hk => exact claimLaw_of_supervises (supervises_inject hk) hs
  · trivial

theorem claimsLawful_rearmAnswer (hs : s.ClaimLaw) : (rearmAnswer params s).ClaimsLawful := by
  refine claimsLawful_oneParam params fun src => ?_
  split
  · trivial
  · split
    · trivial
    · have hrearm := claimLaw_rearm src hs
      cases src <;> exact hrearm

theorem claimsLawful_clearObservedAnswer (hs : s.ClaimLaw) : (clearObservedAnswer params s).ClaimsLawful := by
  refine claimsLawful_oneParam params fun c => ?_
  split
  · trivial
  · exact claimLaw_putChannel hs Iff.rfl

theorem claimsLawful_readObservedAnswer (hs : s.ClaimLaw) : (readObservedAnswer params s).ClaimsLawful := by
  refine claimsLawful_oneParam params fun c => ?_
  split
  · trivial
  · exact hs

/-! Requests of the reactions and the outputs -/

theorem claimsLawful_setReactionAnswer (hs : s.ClaimLaw) : (setReactionAnswer params s).ClaimsLawful := by
  unfold setReactionAnswer
  split
  · split
    · refine claimsLawful_whenRunning ?_
      split
      · trivial
      · next hold =>
        split
        · trivial
        · next hnew => exact claimLaw_putReaction hs (by simpa using hold) (by simpa using hnew)
    · trivial
  · trivial

theorem claimsLawful_setOutputAnswer (hs : s.ClaimLaw) : (setOutputAnswer params s).ClaimsLawful := by
  unfold setOutputAnswer
  split
  · split
    · exact claimsLawful_whenRunning (claimLaw_of_eq hs rfl rfl rfl rfl)
    · trivial
  · trivial

/-! Requests of the patterns, the lines, the link and the store -/

theorem claimsLawful_definePatternAnswer (hs : s.ClaimLaw) : (definePatternAnswer params s).ClaimsLawful := by
  obtain ⟨status, he⟩ | ⟨data, id, p, he⟩ := definePatternAnswer_cases params s
  · rw [he]; trivial
  · have hrest := definePattern_rest s id p
    have hlink : (s.definePattern id p).link = s.link := by rw [hrest]
    rw [he]
    exact claimLaw_of_sameTrips hs ⟨by rw [hrest], by rw [hrest],
      sourceTripped_congr (fun c => by rw [state_definePattern]) (by rw [hlink])⟩

theorem claimsLawful_deletePatternAnswer (hs : s.ClaimLaw) : (deletePatternAnswer params s).ClaimsLawful := by
  refine claimsLawful_oneParam params fun id => ?_
  split
  · trivial
  · split
    · trivial
    · exact claimLaw_of_eq hs rfl rfl rfl rfl

theorem claimsLawful_readPatternAnswer (hs : s.ClaimLaw) : (readPatternAnswer params s).ClaimsLawful := by
  refine claimsLawful_oneParam params fun id => ?_
  split
  · trivial
  · exact hs

theorem claimsLawful_setLineAnswer (hs : s.ClaimLaw) : (setLineAnswer params s).ClaimsLawful := by
  unfold setLineAnswer
  split
  · split
    · split
      · exact claimsLawful_whenRunning (claimLaw_of_supervises (supervises_setFilter s _ _ _) hs)
      · trivial
    · trivial
  · trivial

theorem claimsLawful_setLinkAnswer (hs : s.ClaimLaw) : (setLinkAnswer params s).ClaimsLawful := by
  unfold setLinkAnswer
  split
  · split
    · exact claimsLawful_whenRunning (claimLaw_withLink hs (sameTrip_setTimeout _ _ _))
    · trivial
  · trivial

theorem claimsLawful_savePlanAnswer (hs : s.ClaimLaw) : (savePlanAnswer params s).ClaimsLawful := by
  refine claimsLawful_noParams params (claimsLawful_whenRunning ?_)
  split
  · trivial
  · split
    · trivial
    · exact claimLaw_of_eq hs rfl rfl rfl rfl

theorem claimsLawful_erasePlanAnswer (hs : s.ClaimLaw) : (erasePlanAnswer params s).ClaimsLawful := by
  refine claimsLawful_noParams params (claimsLawful_whenRunning ?_)
  split
  · trivial
  · exact claimLaw_of_eq hs rfl rfl rfl rfl

/-! Events -/

theorem claimLaw_frameEndExpiry {o : Fin 6} (hs : s.ClaimLaw) (h : execFrameEndExpiry o s = .next t) : t.ClaimLaw := by
  obtain rfl := Host.Outcome.next.inj h
  split
  · split
    · exact claimLaw_of_eq hs rfl rfl rfl rfl
    · exact hs
  · exact hs

theorem claimLaw_saveCompletion {matched : Bool} (hs : s.ClaimLaw) (h : execSaveCompletion matched s = .next t) :
    t.ClaimLaw := by
  obtain rfl := Host.Outcome.next.inj h
  split
  · split
    · exact hs
    · exact claimLaw_of_eq hs rfl rfl rfl rfl
  · exact hs

theorem claimLaw_secondBankInvalidation (hs : s.ClaimLaw) (h : execSecondBankInvalidation s = .next t) : t.ClaimLaw := by
  obtain rfl := Host.Outcome.next.inj h
  split
  · split
    · exact hs
    · exact claimLaw_of_eq hs rfl rfl rfl rfl
  · exact hs

theorem claimLaw_eraseCompletion (hs : s.ClaimLaw) (h : execEraseCompletion s = .next t) : t.ClaimLaw := by
  obtain rfl := Host.Outcome.next.inj h
  split
  · split
    · exact hs
    · exact claimLaw_of_eq hs rfl rfl rfl rfl
  · exact hs

theorem claimLaw_byteArrival {b : Byte} (hs : s.ClaimLaw) (h : execByteArrival b s = .next t) : t.ClaimLaw := by
  obtain rfl := Host.Outcome.next.inj h
  split
  · exact hs
  · exact claimLaw_withLink hs (sameTrip_receive s.link s.time b)

theorem claimLaw_framingFault (hs : s.ClaimLaw) (h : execFramingFault s = .next t) : t.ClaimLaw := by
  obtain rfl := Host.Outcome.next.inj h
  split
  · exact hs
  · split
    · exact hs
    · exact claimLaw_withLink hs (sameTrip_refl _)

theorem claimLaw_gapExpiry (hs : s.ClaimLaw) (h : execGapExpiry s = .next t) : t.ClaimLaw := by
  obtain rfl := Host.Outcome.next.inj h
  split
  · split
    · exact claimLaw_withLink hs (sameTrip_refl _)
    · exact hs
  · exact hs

/-- LINK trips from WATCHING (R148). -/
theorem claimLaw_silenceExpiry (hs : s.ClaimLaw) (h : execSilenceExpiry s = .next t) : t.ClaimLaw := by
  obtain rfl := Host.Outcome.next.inj h
  split
  · next hwatching =>
    split
    · exact claimLaw_tripLink (by rw [hwatching]; nofun) hs
    · exact hs
  · exact hs

/-! Reset, the load and time -/

theorem claimLaw_of_cleared {pin : Fin 8 → Level} (h : t.Cleared pin) : t.ClaimLaw :=
  claimLaw_of_untripped (untripped_of_cleared h)

theorem claimLaw_resetEnd (hs : s.ClaimLaw) (h : execResetEnd s = .next t) : t.ClaimLaw := by
  obtain rfl := Host.Outcome.next.inj h
  split
  · exact claimLaw_of_eq hs rfl rfl rfl rfl
  · exact hs

/-- The end of an accepted RESET's reply begins and ends a reset; any other reply leaves the next one to be sent (R131, R144). -/
theorem claimLaw_replySent (hs : s.ClaimLaw) (h : execReplySent s = .next t) : t.ClaimLaw := by
  obtain rfl := Host.Outcome.next.inj h
  split
  · split
    · split
      · exact claimLaw_of_eq (claimLaw_of_cleared (cleared_beginReset s .resetRequest)) rfl rfl rfl rfl
      · exact claimLaw_withLink hs (sameTrip_refl _)
    · exact hs
  · exact hs

theorem untripped_of_lawful (hl : s.Lawful) (hd : s.device = .starting) : s.Untripped :=
  untripped_of_asleep ((dormant_of_lawful hl).asleep (by rw [hd]; nofun))

theorem untripped_loadPlan (img : Image) (h : s.Untripped) : (s.loadPlan img).Untripped :=
  ⟨h.claims, fun c => by rw [channels_loadPlan]; exact h.channels c, h.link⟩

/-- The blocks take up their running state: LINK is OFF or WATCHING (R151). -/
theorem untripped_enterBlocks (h : s.Untripped) : s.enterBlocks.Untripped := by
  refine ⟨h.claims, h.channels, ?_⟩
  unfold State.enterBlocks
  simp only
  split <;> nofun

theorem untripped_armChannel (c : Fin 8) (h : s.Untripped) : (s.armChannel c).Untripped := by
  have hturn := turn_armChannel s c
  refine ⟨h.claims, fun d => ?_, by rw [hturn.link]; exact h.link⟩
  by_cases hd : c = d
  · subst hd
    rw [channel_armChannel]
    nofun
  · rw [hturn.others d hd]
    exact h.channels d

theorem untripped_bootArm (h : s.Untripped) : s.bootArm.Untripped := by
  refine forChannels_induct State.Untripped s _ h fun c u hu => ?_
  split
  · exact untripped_armChannel c hu
  · exact hu

theorem untripped_offer (now : Time) (src : NoticeSource) (body : NoticeBody) (h : s.Untripped) :
    (s.offer now src body).Untripped := ⟨h.claims, h.channels, h.link⟩

/-- RUNNING begins with no claim and nothing TRIPPED (R136). -/
theorem claimLaw_planLoadEnd (hl : s.Lawful) (h : execPlanLoadEnd s = .next t) : t.ClaimLaw := by
  obtain rfl := Host.Outcome.next.inj h
  split
  · next hd =>
    have hload := untripped_loadPlan s.store.selectPlan.1 (untripped_of_lawful hl hd)
    exact claimLaw_of_untripped (untripped_bootArm (untripped_offer _ _ _ (untripped_enterBlocks hload)))
  · exact hl.claims

theorem claimLaw_tick (hs : s.ClaimLaw) : s.tick.ClaimLaw := by
  by_cases hd : s.device = .reset
  · rw [tick_of_reset hd]; exact hs
  · have hchannel := channel_tick hd
    rw [tick_of_not_reset hd] at hchannel ⊢
    exact claimLaw_of_sameTrips hs ⟨rfl, rfl, sourceTripped_congr (fun c => by rw [hchannel c]) Iff.rfl⟩

/-- Nothing is due: a microsecond, or the plan is written in STARTING, where no claim is held (R90, R135). -/
theorem claimLaw_pass (hl : s.Lawful) : s.pass.ClaimLaw := by
  have hdrawn : s.drawn.Lawful := lawful_with_pending_draws hl s.pending (s.draws + 1)
  by_cases hplan : s.device = .starting ∧ s.planWritten = false
  · obtain ⟨hd, hp⟩ := hplan
    rw [pass_of_unwritten hd hp]
    split
    · exact claimLaw_of_untripped (untripped_loadPlan _ (untripped_of_lawful hdrawn hd))
    · exact claimLaw_tick hdrawn.claims
  · rw [pass_of_written hplan]
    exact claimLaw_tick hl.claims

/-! Commands and steps -/

theorem claimLaw_of_request {f : Frame} {carryOut : State → Answer} (hs : s.ClaimLaw)
    (h : Host.Outcome.next (s.request f carryOut) = (.next t : Host.Outcome State Fault Refusal))
    (hk : ∀ u : State, u.ClaimLaw → (carryOut u).ClaimsLawful) : t.ClaimLaw := by
  obtain rfl := Host.Outcome.next.inj h
  exact claimLaw_request f hs hk

theorem claimLaw_unknownRequestCode {tag code : Byte} {params : List Byte} (hs : s.ClaimLaw)
    (h : execUnknownRequestCode tag code params s = .next t) : t.ClaimLaw := by
  obtain rfl := Host.Outcome.next.inj h
  split
  · exact hs
  · exact claimLaw_request _ hs fun _ _ => trivial

/-- Every command keeps the law of the claims. -/
theorem claimLaw_exec (i : Instr) (hl : s.Lawful) (h : exec i s = .next t) : t.ClaimLaw := by
  have hs := hl.claims
  cases i with
  | arm tag params => exact claimLaw_of_request hs h fun _ => claimsLawful_armAnswer params
  | clearChannel tag params => exact claimLaw_of_request hs h fun _ => claimsLawful_clearChannelAnswer params
  | clearObserved tag params => exact claimLaw_of_request hs h fun _ => claimsLawful_clearObservedAnswer params
  | configureChannel tag params => exact claimLaw_of_request hs h fun _ => claimsLawful_configureChannelAnswer params
  | definePattern tag params => exact claimLaw_of_request hs h fun _ => claimsLawful_definePatternAnswer params
  | deletePattern tag params => exact claimLaw_of_request hs h fun _ => claimsLawful_deletePatternAnswer params
  | disarm tag params => exact claimLaw_of_request hs h fun _ hu => claimsLawful_oneParam params fun c => claimLaw_disarm c hu
  | erasePlan tag params => exact claimLaw_of_request hs h fun _ => claimsLawful_erasePlanAnswer params
  | fetch tag params =>
    exact claimLaw_of_request hs h fun _ hu => claimsLawful_oneParam params fun _ => claimLaw_of_eq hu rfl rfl rfl rfl
  | identify tag params => exact claimLaw_of_request hs h fun _ hu => claimsLawful_noParams params hu
  | inject tag params => exact claimLaw_of_request hs h fun _ => claimsLawful_injectAnswer params
  | pause tag params => exact claimLaw_of_request hs h fun _ => claimsLawful_pauseAnswer params
  | readChannel tag params => exact claimLaw_of_request hs h fun _ hu => claimsLawful_oneParam params fun _ => hu
  | readLine tag params => exact claimLaw_of_request hs h fun _ hu => claimsLawful_oneParam params fun _ => hu
  | readObserved tag params => exact claimLaw_of_request hs h fun _ => claimsLawful_readObservedAnswer params
  | readOutput tag params => exact claimLaw_of_request hs h fun _ hu => claimsLawful_oneParam params fun _ => hu
  | readPattern tag params => exact claimLaw_of_request hs h fun _ => claimsLawful_readPatternAnswer params
  | readReaction tag params => exact claimLaw_of_request hs h fun _ hu => claimsLawful_oneParam params fun _ => hu
  | rearm tag params => exact claimLaw_of_request hs h fun _ => claimsLawful_rearmAnswer params
  | resetRequest tag params =>
    exact claimLaw_of_request hs h fun _ hu => claimsLawful_noParams params (claimsLawful_whenRunning hu)
  | resume tag params => exact claimLaw_of_request hs h fun _ => claimsLawful_resumeAnswer params
  | savePlan tag params => exact claimLaw_of_request hs h fun _ => claimsLawful_savePlanAnswer params
  | setAttention tag params =>
    exact claimLaw_of_request hs h fun _ hu => claimsLawful_oneParam params fun _ => claimLaw_of_eq hu rfl rfl rfl rfl
  | setLine tag params => exact claimLaw_of_request hs h fun _ => claimsLawful_setLineAnswer params
  | setLink tag params => exact claimLaw_of_request hs h fun _ => claimsLawful_setLinkAnswer params
  | setOutput tag params => exact claimLaw_of_request hs h fun _ => claimsLawful_setOutputAnswer params
  | setReaction tag params => exact claimLaw_of_request hs h fun _ => claimsLawful_setReactionAnswer params
  | status tag params => exact claimLaw_of_request hs h fun _ hu => claimsLawful_noParams params hu
  | rawChange l level => exact claimLaw_of_supervises (supervises_rawChange h) hs
  | qualificationExpiry l => exact claimLaw_of_supervises (supervises_qualificationExpiry h) hs
  | stepDeadline c =>
    obtain rfl := Host.Outcome.next.inj h
    exact claimLaw_of_supervises (supervises_deliverDeadline .refl) hs
  | acquireExpiry c => exact claimLaw_of_supervises (supervises_acquireExpiry h) hs
  | frameEndExpiry o => exact claimLaw_frameEndExpiry hs h
  | saveCompletion matched => exact claimLaw_saveCompletion hs h
  | secondBankInvalidation => exact claimLaw_secondBankInvalidation hs h
  | eraseCompletion => exact claimLaw_eraseCompletion hs h
  | powerOn =>
    obtain rfl := Host.Outcome.next.inj h
    exact claimLaw_of_cleared (cleared_beginReset s _)
  | resetLine =>
    obtain rfl := Host.Outcome.next.inj h
    exact claimLaw_of_cleared (cleared_beginReset _ _)
  | resetEnd => exact claimLaw_resetEnd hs h
  | planLoadEnd => exact claimLaw_planLoadEnd hl h
  | byteArrival b => exact claimLaw_byteArrival hs h
  | framingFault => exact claimLaw_framingFault hs h
  | gapExpiry => exact claimLaw_gapExpiry hs h
  | replySent => exact claimLaw_replySent hs h
  | silenceExpiry => exact claimLaw_silenceExpiry hs h
  | unknownRequestCode tag code params => exact claimLaw_unknownRequestCode hs h

/-- Every step keeps the law of the claims. -/
theorem claimLaw_step (hl : s.Lawful) (h : step s = .next t) : t.ClaimLaw := by
  obtain ⟨i, pending, draws, h⟩ | rfl := step_cases h
  · exact claimLaw_exec i (lawful_with_pending_draws hl pending draws) h
  · exact claimLaw_pass hl

/-- Settles O10, from the law of the claims that every step keeps. -/
theorem claimLawKept : Obligations.ClaimLawKept := fun _ _ hl h => claimLaw_step hl h

end Sys2Proof.Machine

/-! The Output Arbiter: the winning claim's place in its list, and the change that a trip or a release hands to each output (R82 to
R85, R96). -/

namespace Sys2Proof.Machine

/-! The winning claim -/

/-- The winning claim stands behind claims of lower priority alone, and before none of a higher one (R84). -/
theorem winner_place (l : List Claim) (hl : l ≠ []) :
    ∃ (older newer : List Claim) (w : Claim), l = older ++ w :: newer ∧ winner l = some w ∧
      (∀ cl ∈ older, cl.priority < w.priority) ∧ ∀ cl ∈ newer, cl.priority ≤ w.priority := by
  induction l with
  | nil => exact absurd rfl hl
  | cons c cs ih =>
    by_cases hcs : cs = []
    · subst hcs
      exact ⟨[], [], c, rfl, rfl, nofun, nofun⟩
    · obtain ⟨older, newer, v, hsplit, hwinner, holder, hnewer⟩ := ih hcs
      by_cases hlower : c.priority < v.priority
      · refine ⟨c :: older, newer, v, by rw [hsplit, List.cons_append], ?_, ?_, hnewer⟩
        · simp only [winner, hwinner, hlower, if_true]
        · exact List.forall_mem_cons.2 ⟨hlower, holder⟩
      · refine ⟨[], cs, c, rfl, ?_, nofun, fun cl hcl => ?_⟩
        · simp only [winner, hwinner, hlower, if_false]
        · exact Fin.le_trans (winner_max cs v hwinner cl hcl) (Fin.not_lt.1 hlower)

variable {s : State} {o : Fin 6} {w w' : Claim}

theorem effective_unclaimed (h : winner s.claims[o] = none) : s.effective o = s.outputs[o].base := by
  unfold State.effective
  rw [h]

theorem effective_claimed (h : winner s.claims[o] = some w) : s.effective o = w.drive := by
  unfold State.effective
  rw [h]

/-- Settles O58, from the place of the winning claim in its list. -/
theorem theWinningClaimDecides : Obligations.TheWinningClaimDecides := by
  refine fun s o => ⟨fun hempty => effective_unclaimed ((winner_none_iff _).2 hempty), fun hclaims => ?_⟩
  obtain ⟨older, newer, w, hsplit, hwinner, holder, hnewer⟩ := winner_place s.claims[o] hclaims
  exact ⟨older, newer, w, hsplit, hwinner, holder, hnewer, effective_claimed hwinner⟩

/-! The change handed to an output -/

section
variable {new : Vector (List Claim) 6}

theorem output_setClaims_same (h : new[o] = s.claims[o]) : (s.setClaims new).outputs[o] = s.outputs[o] := by
  rw [output_setClaims, h, handOver_same]

/-- The first claims on an output take it from its base (R85). -/
theorem output_setClaims_claimed (h : winner s.claims[o] = none) (hnew : winner new[o] = some w) :
    (s.setClaims new).outputs[o] = s.outputs[o].immediate s.time w.drive := by
  rw [output_setClaims]
  simp only [handOver, h, hnew]

/-- The release of the last claim returns an output to its base (R85). -/
theorem output_setClaims_unclaimed (h : winner s.claims[o] = some w) (hnew : winner new[o] = none) :
    (s.setClaims new).outputs[o] = s.outputs[o].immediate s.time s.outputs[o].base := by
  rw [output_setClaims]
  simp only [handOver, h, hnew]

/-- From one winning claim to another only a different drive is a change (R85). -/
theorem output_setClaims_won (h : winner s.claims[o] = some w) (hnew : winner new[o] = some w') :
    (s.setClaims new).outputs[o] =
      if w.drive = w'.drive then s.outputs[o] else s.outputs[o].immediate s.time w'.drive := by
  rw [output_setClaims]
  by_cases hdrive : w.drive = w'.drive
  · simp only [handOver, h, hnew, hdrive, if_true]
  · simp only [handOver, h, hnew, hdrive, if_false]

end

theorem claimFrom_eq (s : State) (src : Source) (o : Fin 6) (i : Fin 32) :
    s.claimFrom src o i = s.reactions[i].bind fun r =>
      if r.source = src ∧ r.output = o then
        some { index := i, source := src, priority := r.priority, drive := r.drive }
      else none := by
  unfold State.claimFrom
  cases s.reactions[i] with
  | none => rfl
  | some r =>
    by_cases h : r.source = src ∧ r.output = o
    · obtain ⟨rfl, rfl⟩ := h
      rfl
    · simp only [Option.bind_some, h, if_false]

/-- A trip and a release put new claim lists in force. -/
theorem eq_setClaims_of_moves {u : State} {src : Source} (h : u = s.makeClaims src ∨ u = s.releaseClaims src) :
    u = s.setClaims u.claims := by
  obtain rfl | rfl := h <;> rfl

/-- Settles O57: the two claim lists, and the table of R85 for the lists that a trip or a release puts in force. -/
theorem tripsAndReleasesMoveTheOutputs : Obligations.TripsAndReleasesMoveTheOutputs := by
  refine fun s src => ⟨fun o => ?_, claims_releaseClaims s src, fun u hu => ?_⟩
  · rw [claims_makeClaims, State.newClaims, funext (claimFrom_eq s src o)]
  · have hset := eq_setClaims_of_moves hu
    generalize u.claims = new at hset
    subst hset
    exact ⟨fun o => ⟨output_setClaims_same, fun _ => output_setClaims_claimed, fun _ => output_setClaims_unclaimed,
      fun _ _ => output_setClaims_won⟩, rfl⟩

end Sys2Proof.Machine

/-! The requests of the reactions and the reads of reactions and outputs, as the executor carries them out in RUNNING (R77 to R79,
R102). -/

namespace Sys2Proof.Machine

variable {s : State} {i : Fin 32} {new : Option Reaction}

/-! SET_REACTION -/

/-- The parameters that ask for a new content of entry `i`: EMPTY with five bytes that are not examined, or a reaction (R172). -/
def ReactionParameters (i : Fin 32) (new : Option Reaction) (params : List Byte) : Prop :=
  (new = none ∧ ∃ a b c d e : Byte, params = [byte i, 1, a, b, c, d, e]) ∨
    ∃ r : Reaction, new = some r ∧
      params = [byte i, 0, r.source.toByte, byte r.output] ++ be16 r.drive.code ++ [byte r.priority]

theorem reactionOf_empty (a b c d e : Byte) : reactionOf 1 a b c d e = some none := rfl

theorem reactionOf_bytes (r : Reaction) :
    reactionOf 0 r.source.toByte (byte r.output) (byte (r.drive.code / 256)) (byte r.drive.code) (byte r.priority) =
      some (some r) := by
  simp [reactionOf, sourceOf_toByte, finOf_byte 6 r.output (by decide), driveOf_bytes, finOf_byte 8 r.priority (by decide)]

/-- The checks of SET_REACTION, the present source before the new one (R77). -/
theorem setReactionAnswer_of_running {params : List Byte} (h : ReactionParameters i new params)
    (hd : s.device = .running) :
    setReactionAnswer params s =
      if s.reactionTripped s.reactions[i] then .refuse .sourceTripped
      else if s.reactionTripped new then .refuse .sourceTripped
      else .ok [byte i, byte (s.putReaction i new).reactionsInUse] (s.putReaction i new) := by
  obtain ⟨rfl, a, b, c, d, e, rfl⟩ | ⟨r, rfl, rfl⟩ := h
  · simp only [setReactionAnswer, finOf_byte 32 i (by decide), reactionOf_empty, whenRunning, hd, if_true]
  · simp only [be16, List.cons_append, List.nil_append, setReactionAnswer, finOf_byte 32 i (by decide), reactionOf_bytes,
      whenRunning, hd, if_true]

theorem reactionTripped_iff (s : State) (x : Option Reaction) :
    s.reactionTripped x = true ↔ ∃ r, x = some r ∧ s.sourceTripped r.source = true := by
  cases x <;> simp [State.reactionTripped]

/-- Settles O44: the answers of the executor, in the order of the checks. -/
theorem setReactionWritesTheEntry : Obligations.SetReactionWritesTheEntry := by
  rintro s tag i new params rest hparams ⟨htakes, hd⟩
  have hanswer := setReactionAnswer_of_running (s := s.taken rest) hparams hd
  have hiff (x : Option Reaction) :
      (s.taken rest).reactionTripped x = true ↔ ∃ r, x = some r ∧ s.sourceTripped r.source = true :=
    reactionTripped_iff s x
  refine ⟨fun ⟨r, hr, htripped⟩ => congrArg _ (request_refused htakes (hanswer.trans ?_)), fun hnone => ?_⟩
  · by_cases hpresent : (s.taken rest).reactionTripped s.reactions[i] = true
    · exact if_pos hpresent
    · have hnew : new = some r := hr.resolve_left fun h => hpresent ((hiff _).2 ⟨r, h, htripped⟩)
      exact (if_neg hpresent).trans (if_pos ((hiff _).2 ⟨r, hnew, htripped⟩))
  · have hnot (x : Option Reaction) (hx : ∀ r, x = some r → s.reactions[i] = some r ∨ new = some r) :
        ¬(s.taken rest).reactionTripped x = true := by
      rw [hiff]
      rintro ⟨r, hr, htripped⟩
      exact Bool.false_ne_true ((hnone r (hx r hr)).symm.trans htripped)
    have hanswer := hanswer.trans ((if_neg (hnot _ fun _ => .inl)).trans (if_neg (hnot _ fun _ => .inr)))
    exact congrArg _ (request_accepted htakes hanswer rfl rfl)

/-! READ_REACTION and READ_OUTPUT -/

theorem claimWins_iff (s : State) (i : Fin 32) (r : Reaction) :
    s.claimWins i r = true ↔ (winner s.claims[r.output]).map (·.index) = some i := by
  unfold State.claimWins
  cases winner s.claims[r.output] <;> simp

theorem yesNo_claimWins (s : State) (i : Fin 32) (r : Reaction) :
    yesNo (s.claimWins i r) = if (winner s.claims[r.output]).map (·.index) = some i then 1 else 0 := by
  simp only [yesNo, claimWins_iff]

theorem reactionData_empty (h : s.reactions[i] = none) : s.reactionData i = [byte i, 1, 0, 0, 0, 0, 0, 0, 0, 0, 0, 0] := by
  unfold State.reactionData
  rw [h]
  rfl

/-- READ_REACTION's data of an entry in use: the entry, then its claim's place and whether it wins (R79, R173). -/
theorem reactionData_some {r : Reaction} (h : s.reactions[i] = some r) :
    s.reactionData i =
      [byte i, 0, r.source.toByte, byte r.output] ++ be16 r.drive.code ++ [byte r.priority] ++
        match s.claimPosition i r with
        | none => [0, 0, 0, 0, 0]
        | some place =>
          [1, 1, byte place, 1, if (winner s.claims[r.output]).map (·.index) = some i then 1 else 0] := by
  unfold State.reactionData
  rw [h]
  simp only [yesNo_claimWins]
  cases s.claimPosition i r <;> rfl

/-- READ_OUTPUT's data: the generator's record, the effective drive and the claims (R102, R173). -/
theorem outputData_eq (s : State) (o : Fin 6) :
    s.outputData o =
      [byte o] ++ be32 s.time.toNat ++ be16 s.outputs[o].base.code ++ [byte s.outputs[o].rate] ++
        be16 (s.effective o).code ++ be16 s.outputs[o].applied.code ++
        [if s.outputs[o].pending then (1 : Byte) else 0] ++
        (match s.outputs[o].frameStart with | some t => 1 :: be32 t.toNat | none => [0, 0, 0, 0, 0]) ++
        [byte s.claims[o].length] ++
        s.claims[o].flatMap fun cl =>
          [byte cl.index, cl.source.toByte, byte cl.priority] ++ be16 cl.drive.code := by
  have hframe (start : Option Time) :
      optional (start.map time32) 4 = match start with | some t => 1 :: be32 t.toNat | none => [0, 0, 0, 0, 0] := by
    cases start <;> rfl
  unfold State.outputData
  simp only [hframe]
  rfl

/-- Settles O45: both reads answer their data and change nothing but the link. -/
theorem readReactionAndOutput : Obligations.ReadReactionAndOutput := by
  refine fun s tag rest => ⟨fun i ⟨htakes, hd⟩ => ?_, fun o ⟨htakes, hd⟩ => ?_⟩
  · have hread := request_read (carryOut := readReactionAnswer [byte i]) htakes
      (oneParam_value (s := s.taken rest) hd (finOf_byte 32 i (by decide)) _)
    refine ⟨fun hempty => congrArg _ (hread.trans ?_), fun r hr => congrArg _ (hread.trans ?_)⟩
    · rw [reactionData_empty (s := s.taken rest) hempty]
    · rw [reactionData_some (s := s.taken rest) hr]
      rfl
  · refine congrArg _ ((request_read htakes
      (oneParam_value (s := s.taken rest) hd (finOf_byte 6 o (by decide)) _)).trans ?_)
    rw [outputData_eq]
    rfl

end Sys2Proof.Machine

/-! The generators: the two forms in which the law of the outputs allows a record, and what each change of a generator makes of
them (R92, R95 to R100). -/

namespace Sys2Proof.Machine

/-! The effective drive and the law of one record -/

/-- The drive that a claim list makes effective over a base drive (R84). -/
def wonDrive (base : Drive) (l : List Claim) : Drive :=
  match winner l with
  | some w => w.drive
  | none => base

theorem effective_eq (s : State) (o : Fin 6) : s.effective o = wonDrive s.outputs[o].base s.claims[o] := rfl

theorem wonDrive_of_winner {base : Drive} {l : List Claim} {w : Claim} (h : winner l = some w) : wonDrive base l = w.drive := by
  unfold wonDrive
  rw [h]

/-- While claims are held the base decides nothing (R84). -/
theorem wonDrive_claimed {l : List Claim} (hl : l ≠ []) (base base' : Drive) : wonDrive base l = wonDrive base' l := by
  unfold wonDrive
  cases h : winner l with
  | none => exact absurd ((winner_none_iff l).1 h) hl
  | some w => rfl

/-- A frame is held exactly while the applied drive is DUTY (R92). -/
def Generator.Framed (g : Generator) : Prop := g.frameStart.isSome ↔ g.applied.isDuty = true

/-- A generator with the claims of its output follows its drive: either a base of DUTY waits for the end of a frame, or the
applied drive is the effective one, unless the base is only recorded (R92, R100, R104). -/
inductive Generator.Follows (g : Generator) (claims : List Claim) (recorded : Prop) : Prop
  | waiting (flag : g.pending = true) (framed : g.Framed) (unclaimed : claims = []) (applied : g.applied.isDuty = true)
      (base : g.base.isDuty = true)
  | settled (flag : g.pending = false) (framed : g.Framed) (drive : recorded ∨ g.applied = wonDrive g.base claims)

/-- STARTING with the plan written: the base is only recorded (R104). -/
def State.BaseRecorded (s : State) : Prop := s.device = .starting ∧ s.planWritten = true

theorem outputLawAt_iff {s : State} {o : Fin 6} : s.OutputLawAt o ↔ s.outputs[o].Follows s.claims[o] s.BaseRecorded := by
  unfold State.OutputLawAt
  rw [effective_eq]
  constructor
  · rintro ⟨hframed, h⟩
    split at h
    · next hflag =>
      obtain ⟨hunclaimed, happlied, hbase⟩ := h
      exact .waiting hflag hframed hunclaimed happlied hbase
    · next hflag => exact .settled (Bool.not_eq_true _ ▸ hflag) hframed h
  · intro h
    cases h with
    | waiting flag framed unclaimed applied base =>
      rw [if_pos flag]
      exact ⟨framed, unclaimed, applied, base⟩
    | settled flag framed drive =>
      rw [if_neg (by rw [flag]; exact Bool.false_ne_true)]
      exact ⟨framed, drive⟩

variable {g : Generator} {l : List Claim} {r r' : Prop} {now : Time}

theorem framed_of_follows (h : g.Follows l r) : g.Framed := by
  cases h with
  | waiting _ framed => exact framed
  | settled _ framed => exact framed

theorem follows_mono (h : g.Follows l r) (hr : r → r') : g.Follows l r' := by
  cases h with
  | waiting flag framed unclaimed applied base => exact .waiting flag framed unclaimed applied base
  | settled flag framed drive => exact .settled flag framed (drive.imp_left hr)

/-- While claims are held no base waits (R100). -/
theorem settled_of_claimed (h : g.Follows l r) (hl : l ≠ []) : g.pending = false ∧ (r ∨ g.applied = wonDrive g.base l) := by
  cases h with
  | waiting _ _ unclaimed => exact absurd unclaimed hl
  | settled flag _ drive => exact ⟨flag, drive⟩

/-! Applying a drive -/

theorem framed_apply (g : Generator) (now : Time) (d : Drive) : (g.apply now d).Framed := by
  unfold Generator.Framed Generator.apply
  cases d <;> simp [Drive.isDuty]

theorem follows_apply {d : Drive} (flag : g.pending = false) (hd : d = wonDrive g.base l) : (g.apply now d).Follows l r :=
  .settled flag (framed_apply g now d) (.inr hd)

/-- An immediate change to the effective drive drops a waiting base (R96). -/
theorem follows_immediate {d : Drive} (hd : d = wonDrive g.base l) : (g.immediate now d).Follows l r :=
  follows_apply (g := { g with pending := false }) rfl hd

/-- A base that is only recorded may be any, and so may its rate (R104). -/
theorem follows_recorded (h : g.Framed) (flag : g.pending = false) (hr : r) (base : Drive) (rate : Fin 5) :
    ({ g with base, rate } : Generator).Follows l r := .settled flag h (.inl hr)

/-! The frame end and SET_OUTPUT -/

/-- The next frame is of the waiting base or of the drive applied, both DUTY (R95, R100). -/
theorem follows_nextFrame {start : Time} (h : g.Follows l r) (hstart : g.frameStart = some start) :
    (g.nextFrame start).Follows l r := by
  unfold Generator.nextFrame
  cases h with
  | waiting flag framed unclaimed applied base =>
    rw [if_pos flag]
    exact follows_apply (g := { g with pending := false }) rfl (by rw [unclaimed]; rfl)
  | settled flag framed drive =>
    have hduty : g.applied.isDuty = true := framed.1 (by rw [hstart]; rfl)
    rw [if_neg (by rw [flag]; exact Bool.false_ne_true)]
    exact .settled flag (iff_of_true rfl hduty) drive

section
variable {base : Drive} {rate : Fin 5}

/-- A base change under claims (R98). -/
theorem setBase_recorded (hrate : rate = g.rate) : g.setBase now true base rate = ({ g with base }, .recorded) := by
  unfold Generator.setBase
  rw [if_pos hrate, if_pos rfl]

/-- A change from one DUTY base to another waits for the end of the frame (R98). -/
theorem setBase_waits (hrate : rate = g.rate) (happlied : g.applied.isDuty = true) (hbase : base.isDuty = true) :
    g.setBase now false base rate = ({ g with base, pending := true }, .atFrameEnd) := by
  unfold Generator.setBase
  rw [if_pos hrate, if_neg Bool.false_ne_true, if_pos (Bool.and_eq_true_iff.2 ⟨happlied, hbase⟩)]

/-- Any other base change without claims is applied (R98). -/
theorem setBase_applied (hrate : rate = g.rate) (h : ¬(g.applied.isDuty = true ∧ base.isDuty = true)) :
    g.setBase now false base rate = ({ g with base, pending := false }.apply now base, .atOnce) := by
  unfold Generator.setBase
  rw [if_pos hrate, if_neg Bool.false_ne_true, if_neg fun hduty => h (Bool.and_eq_true_iff.1 hduty)]

/-- A rate change without claims applies the base at the new rate (R99). -/
theorem setBase_newRate (hrate : rate ≠ g.rate) :
    g.setBase now false base rate = ({ g with base, rate, pending := false }.apply now base, .atOnce) := by
  unfold Generator.setBase
  rw [if_neg hrate, if_neg Bool.false_ne_true]

/-- A rate change under claims applies the drive in force again, at the new rate (R99). -/
theorem setBase_newRate_claimed (hrate : rate ≠ g.rate) :
    g.setBase now true base rate = ({ g with base, rate }.apply now g.applied, .recorded) := by
  unfold Generator.setBase
  rw [if_neg hrate, if_pos rfl]

end

theorem claimed_iff (l : List Claim) : (!l.isEmpty) = true ↔ l ≠ [] := by simp

/-- SET_OUTPUT's five outcomes, by the claims, the rate and the two drives (R98, R99). -/
theorem follows_setBase (h : g.Follows l r) (base : Drive) (rate : Fin 5) :
    (g.setBase now (!l.isEmpty) base rate).1.Follows l r := by
  have framed := framed_of_follows h
  by_cases hl : l = []
  · subst hl
    show (g.setBase now false base rate).1.Follows [] r
    by_cases hrate : rate = g.rate
    · by_cases hduty : g.applied.isDuty = true ∧ base.isDuty = true
      · obtain ⟨happlied, hbase⟩ := hduty
        rw [setBase_waits hrate happlied hbase]
        exact .waiting rfl framed rfl happlied hbase
      · rw [setBase_applied hrate hduty]
        exact follows_apply rfl rfl
    · rw [setBase_newRate hrate]
      exact follows_apply rfl rfl
  · obtain ⟨flag, drive⟩ := settled_of_claimed h hl
    rw [wonDrive_claimed hl g.base base] at drive
    rw [(claimed_iff l).2 hl]
    by_cases hrate : rate = g.rate
    · rw [setBase_recorded hrate]
      exact .settled flag framed drive
    · rw [setBase_newRate_claimed hrate]
      exact .settled flag (framed_apply _ now _) drive

/-! Claims put in force -/

/-- The change that the arbiter hands over brings the output to its effective drive, and where it hands none the output is
there (R85, R96). -/
theorem follows_setClaims {s : State} {o : Fin 6} (new : Vector (List Claim) 6) (h : s.outputs[o].Follows s.claims[o] r) :
    (s.setClaims new).outputs[o].Follows new[o] r := by
  cases hnew : winner new[o] with
  | none =>
    have hempty : new[o] = [] := (winner_none_iff _).1 hnew
    cases hold : winner s.claims[o] with
    | none =>
      have hsame : new[o] = s.claims[o] := hempty.trans ((winner_none_iff _).1 hold).symm
      rw [output_setClaims_same hsame, hsame]
      exact h
    | some w =>
      rw [output_setClaims_unclaimed hold hnew, hempty]
      exact follows_immediate rfl
  | some w =>
    have hwon (base : Drive) : w.drive = wonDrive base new[o] := (wonDrive_of_winner hnew).symm
    cases hold : winner s.claims[o] with
    | none =>
      rw [output_setClaims_claimed hold hnew]
      exact follows_immediate (hwon _)
    | some v =>
      rw [output_setClaims_won hold hnew]
      split
      · next hdrive =>
        obtain ⟨flag, drive⟩ := settled_of_claimed h fun hnil => by rw [hnil] at hold; cases hold
        rw [wonDrive_of_winner hold, hdrive, hwon] at drive
        exact .settled flag (framed_of_follows h) drive
      · exact follows_immediate (hwon _)

end Sys2Proof.Machine

/-! The outputs through trips, releases, requests, events and time: every step keeps their law (R92, R100, R104). -/

namespace Sys2Proof.Machine

variable {s t : State} {c : Fin 8}

/-! What the law reads -/

/-- The law of the outputs reads their records and claims, the device state and whether the plan is written. -/
theorem outputLaw_of_eq (hs : s.OutputLaw) (hdevice : t.device = s.device) (hplan : t.planWritten = s.planWritten)
    (hclaims : t.claims = s.claims) (houtputs : t.outputs = s.outputs) : t.OutputLaw := by
  intro o
  have h := outputLawAt_iff.1 (hs o)
  rw [outputLawAt_iff, State.BaseRecorded, hdevice, hplan, hclaims, houtputs]
  exact h

theorem outputLaw_setClaims (new : Vector (List Claim) 6) (hs : s.OutputLaw) : (s.setClaims new).OutputLaw :=
  fun o => outputLawAt_iff.2 (follows_setClaims new (outputLawAt_iff.1 (hs o)))

/-- A new record for an output. -/
theorem outputLaw_putOutput {o : Fin 6} {g : Generator} (hs : s.OutputLaw) (hg : g.Follows s.claims[o] s.BaseRecorded) :
    (s.putOutput o g).OutputLaw := by
  intro j
  have h := outputLawAt_iff.1 (hs j)
  rw [outputLawAt_iff]
  by_cases hj : o = j
  · subst hj
    rw [outputs_get_putOutput_self]
    exact hg
  · rw [outputs_get_putOutput_ne s o j g hj]
    exact h

/-- Claims and outputs are touched by the acts of a channel only as claim lists are put in force (R85). -/
theorem outputLaw_of_acts (h : s.Acts t) (hs : s.OutputLaw) : t.OutputLaw := by
  induction h with
  | refl => exact hs
  | put c x _ ih => exact outputLaw_of_eq ih rfl rfl rfl rfl
  | offer now src body _ ih => exact outputLaw_of_eq ih rfl rfl rfl rfl
  | claims new _ ih => exact outputLaw_setClaims new ih
  | choose n _ ih => exact outputLaw_of_eq ih rfl rfl rfl rfl

/-- The Channel Engine keeps the law of the outputs on every edge and expiry. -/
theorem outputLaw_of_supervises (h : s.Supervises t) (hs : s.OutputLaw) : t.OutputLaw := by
  induction h with
  | refl => exact hs
  | line l x _ ih => exact outputLaw_of_eq ih rfl rfl rfl rfl
  | record _ _ ih => exact outputLaw_of_eq ih rfl rfl rfl rfl
  | deviation dev _ _ ih => exact outputLaw_of_acts (acts_handleDeviation dev .refl) ih
  | mark now c k d cycles _ ih => exact outputLaw_of_eq ih rfl rfl rfl rfl
  | choose n _ ih => exact outputLaw_of_eq ih rfl rfl rfl rfl

theorem outputLaw_withLink (k : Link) (hs : s.OutputLaw) : ({ s with link := k } : State).OutputLaw :=
  outputLaw_of_eq hs rfl rfl rfl rfl

/-! Trips and releases -/

theorem outputLaw_tripLink (hs : s.OutputLaw) : s.tripLink.OutputLaw :=
  outputLaw_of_eq (outputLaw_setClaims _ (outputLaw_withLink { s.link with source := .tripped } hs)) rfl rfl rfl rfl

theorem acts_disarm (s : State) (c : Fin 8) : s.Acts (s.disarm c) := by
  unfold State.disarm
  split
  · exact .refl
  · simp only
    split
    · exact .claims _ (.put c _ .refl)
    · exact .put c _ .refl

theorem outputLaw_rearm (src : Source) (hs : s.OutputLaw) : (s.rearm src).OutputLaw := by
  cases src with
  | channel c => exact outputLaw_of_acts (.put c _ (.claims _ (.put c _ .refl))) hs
  | link => exact outputLaw_setClaims _ (outputLaw_withLink _ hs)

/-! Requests -/

/-- The effect of an answer keeps the law of the outputs; a refusal has no effect. -/
def Answer.OutputsLawful : Answer → Prop
  | .refuse _ => True
  | .ok _ t => t.OutputLaw
  | .okThenReset t => t.OutputLaw

theorem outputLaw_answer (tag : Byte) {a : Answer} (hs : s.OutputLaw) (h : a.OutputsLawful) : (s.answer tag a).OutputLaw := by
  cases a with
  | refuse status => exact outputLaw_withLink _ hs
  | ok data t => exact outputLaw_withLink (s := t) _ h
  | okThenReset t => exact outputLaw_withLink (s := t) _ h

/-- A request keeps the law of the outputs when what the executor carries out keeps it. -/
theorem outputLaw_request (f : Frame) {carryOut : State → Answer} (hs : s.OutputLaw)
    (h : ∀ u : State, u.OutputLaw → (carryOut u).OutputsLawful) : (s.request f carryOut).OutputLaw := by
  obtain ⟨-, he⟩ | ⟨-, l, -, he | ⟨rest, -, -, he⟩⟩ := request_cases s f carryOut
  · rw [he]; exact hs
  · rw [he]; exact outputLaw_withLink l hs
  · have htaken : ({ s with link := { l with inbox := rest } } : State).OutputLaw := outputLaw_withLink _ hs
    rw [he]
    exact outputLaw_answer f.tag htaken (h _ htaken)

theorem outputsLawful_whenRunning {a : Answer} (h : a.OutputsLawful) : (whenRunning s a).OutputsLawful := by
  unfold whenRunning
  split
  · exact h
  · trivial

theorem outputsLawful_noParams (params : List Byte) {a : Answer} (h : a.OutputsLawful) :
    (noParams params a).OutputsLawful := by
  unfold noParams
  split
  · exact h
  · trivial

theorem outputsLawful_oneParam {α : Type} (params : List Byte) {parse : Byte → Option α} {k : α → Answer}
    (h : ∀ x, (k x).OutputsLawful) : (oneParam params s parse k).OutputsLawful := by
  unfold oneParam
  split
  · split
    · exact outputsLawful_whenRunning (h _)
    · trivial
  · trivial

/-! Requests of the channels and the sources -/

variable (params : List Byte)

theorem outputsLawful_configureChannelAnswer (hs : s.OutputLaw) : (configureChannelAnswer params s).OutputsLawful := by
  unfold configureChannelAnswer
  split
  · split
    · refine outputsLawful_whenRunning ?_
      split
      · trivial
      · split
        · trivial
        · exact outputLaw_of_eq hs rfl rfl rfl rfl
    · trivial
  · trivial

theorem outputsLawful_clearChannelAnswer (hs : s.OutputLaw) : (clearChannelAnswer params s).OutputsLawful := by
  refine outputsLawful_oneParam params fun c => ?_
  split
  · trivial
  · split
    · trivial
    · exact outputLaw_of_eq hs rfl rfl rfl rfl

theorem outputsLawful_armAnswer (hs : s.OutputLaw) : (armAnswer params s).OutputsLawful := by
  refine outputsLawful_oneParam params fun c => ?_
  split
  · trivial
  · split
    · trivial
    · split
      · trivial
      · exact outputLaw_of_eq hs rfl rfl rfl rfl

theorem outputsLawful_disarmAnswer (hs : s.OutputLaw) : (disarmAnswer params s).OutputsLawful :=
  outputsLawful_oneParam params fun c => outputLaw_of_acts (acts_disarm s c) hs

theorem outputsLawful_pauseAnswer (hs : s.OutputLaw) : (pauseAnswer params s).OutputsLawful := by
  refine outputsLawful_oneParam params fun c => ?_
  split
  · exact outputLaw_of_eq hs rfl rfl rfl rfl
  · trivial

theorem outputsLawful_resumeAnswer (hs : s.OutputLaw) : (resumeAnswer params s).OutputsLawful := by
  refine outputsLawful_oneParam params fun c => ?_
  split
  · exact outputLaw_of_eq hs rfl rfl rfl rfl
  · trivial

/-- The deviation that INJECT forms may trip the channel (R73). -/
theorem outputsLawful_injectAnswer (hs : s.OutputLaw) : (injectAnswer params s).OutputsLawful := by
  refine outputsLawful_oneParam params fun c => ?_
  split
  · exact outputLaw_of_acts (acts_handleDeviation _ .refl) hs
  · trivial

theorem outputsLawful_rearmAnswer (hs : s.OutputLaw) : (rearmAnswer params s).OutputsLawful := by
  refine outputsLawful_oneParam params fun src => ?_
  split
  · trivial
  · split
    · trivial
    · have hrearm := outputLaw_rearm src hs
      cases src with
      | channel c => exact hrearm
      | link => exact hrearm

theorem outputsLawful_clearObservedAnswer (hs : s.OutputLaw) : (clearObservedAnswer params s).OutputsLawful := by
  refine outputsLawful_oneParam params fun c => ?_
  split
  · trivial
  · exact outputLaw_of_eq hs rfl rfl rfl rfl

theorem outputsLawful_readObservedAnswer (hs : s.OutputLaw) : (readObservedAnswer params s).OutputsLawful := by
  refine outputsLawful_oneParam params fun c => ?_
  split
  · trivial
  · exact hs

/-! Requests of the reactions and the outputs -/

theorem outputsLawful_setReactionAnswer (hs : s.OutputLaw) : (setReactionAnswer params s).OutputsLawful := by
  unfold setReactionAnswer
  split
  · split
    · refine outputsLawful_whenRunning ?_
      split
      · trivial
      · split
        · trivial
        · exact outputLaw_of_eq hs rfl rfl rfl rfl
    · trivial
  · trivial

theorem outputsLawful_setOutputAnswer (hs : s.OutputLaw) : (setOutputAnswer params s).OutputsLawful := by
  unfold setOutputAnswer
  split
  · split
    · exact outputsLawful_whenRunning (outputLaw_putOutput hs (follows_setBase (outputLawAt_iff.1 (hs _)) _ _))
    · trivial
  · trivial

/-! Requests of the patterns, the lines, the link and the store -/

theorem outputsLawful_definePatternAnswer (hs : s.OutputLaw) : (definePatternAnswer params s).OutputsLawful := by
  obtain ⟨status, he⟩ | ⟨data, id, p, he⟩ := definePatternAnswer_cases params s
  · rw [he]; trivial
  · have hrest := definePattern_rest s id p
    rw [he]
    exact outputLaw_of_eq hs (by rw [hrest]) (by rw [hrest]) (by rw [hrest]) (by rw [hrest])

theorem outputsLawful_deletePatternAnswer (hs : s.OutputLaw) : (deletePatternAnswer params s).OutputsLawful := by
  refine outputsLawful_oneParam params fun id => ?_
  split
  · trivial
  · split
    · trivial
    · exact outputLaw_of_eq hs rfl rfl rfl rfl

theorem outputsLawful_readPatternAnswer (hs : s.OutputLaw) : (readPatternAnswer params s).OutputsLawful := by
  refine outputsLawful_oneParam params fun id => ?_
  split
  · trivial
  · exact hs

theorem outputsLawful_setLineAnswer (hs : s.OutputLaw) : (setLineAnswer params s).OutputsLawful := by
  unfold setLineAnswer
  split
  · split
    · split
      · exact outputsLawful_whenRunning (outputLaw_of_supervises (supervises_setFilter s _ _ _) hs)
      · trivial
    · trivial
  · trivial

theorem outputsLawful_setLinkAnswer (hs : s.OutputLaw) : (setLinkAnswer params s).OutputsLawful := by
  unfold setLinkAnswer
  split
  · split
    · exact outputsLawful_whenRunning (outputLaw_withLink _ hs)
    · trivial
  · trivial

theorem outputsLawful_savePlanAnswer (hs : s.OutputLaw) : (savePlanAnswer params s).OutputsLawful := by
  refine outputsLawful_noParams params (outputsLawful_whenRunning ?_)
  split
  · trivial
  · split
    · trivial
    · exact outputLaw_of_eq hs rfl rfl rfl rfl

theorem outputsLawful_erasePlanAnswer (hs : s.OutputLaw) : (erasePlanAnswer params s).OutputsLawful := by
  refine outputsLawful_noParams params (outputsLawful_whenRunning ?_)
  split
  · trivial
  · exact outputLaw_of_eq hs rfl rfl rfl rfl

/-! Events -/

theorem outputLaw_frameEndExpiry {o : Fin 6} (hs : s.OutputLaw) (h : execFrameEndExpiry o s = .next t) : t.OutputLaw := by
  obtain rfl := Host.Outcome.next.inj h
  split
  · next hstart =>
    split
    · exact outputLaw_putOutput hs (follows_nextFrame (outputLawAt_iff.1 (hs o)) hstart)
    · exact hs
  · exact hs

theorem outputLaw_saveCompletion {matched : Bool} (hs : s.OutputLaw) (h : execSaveCompletion matched s = .next t) :
    t.OutputLaw := by
  obtain rfl := Host.Outcome.next.inj h
  split
  · split
    · exact hs
    · exact outputLaw_of_eq hs rfl rfl rfl rfl
  · exact hs

theorem outputLaw_secondBankInvalidation (hs : s.OutputLaw) (h : execSecondBankInvalidation s = .next t) : t.OutputLaw := by
  obtain rfl := Host.Outcome.next.inj h
  split
  · split
    · exact hs
    · exact outputLaw_of_eq hs rfl rfl rfl rfl
  · exact hs

theorem outputLaw_eraseCompletion (hs : s.OutputLaw) (h : execEraseCompletion s = .next t) : t.OutputLaw := by
  obtain rfl := Host.Outcome.next.inj h
  split
  · split
    · exact hs
    · exact outputLaw_of_eq hs rfl rfl rfl rfl
  · exact hs

theorem outputLaw_byteArrival {b : Byte} (hs : s.OutputLaw) (h : execByteArrival b s = .next t) : t.OutputLaw := by
  obtain rfl := Host.Outcome.next.inj h
  split
  · exact hs
  · exact outputLaw_withLink _ hs

theorem outputLaw_framingFault (hs : s.OutputLaw) (h : execFramingFault s = .next t) : t.OutputLaw := by
  obtain rfl := Host.Outcome.next.inj h
  split
  · exact hs
  · split
    · exact hs
    · exact outputLaw_withLink _ hs

theorem outputLaw_gapExpiry (hs : s.OutputLaw) (h : execGapExpiry s = .next t) : t.OutputLaw := by
  obtain rfl := Host.Outcome.next.inj h
  split
  · split
    · exact outputLaw_withLink _ hs
    · exact hs
  · exact hs

theorem outputLaw_silenceExpiry (hs : s.OutputLaw) (h : execSilenceExpiry s = .next t) : t.OutputLaw := by
  obtain rfl := Host.Outcome.next.inj h
  split
  · split
    · exact outputLaw_tripLink hs
    · exact hs
  · exact hs

/-! Reset, the load and time -/

/-- With no claim an output whose base and applied drive are LEVEL LOW follows its drive (R103). -/
theorem outputLaw_of_cleared {pin : Fin 8 → Level} (h : t.Cleared pin) : t.OutputLaw := by
  obtain ⟨-, -, -, -, -, -, hclaims, houtputs, -⟩ := h
  intro o
  rw [outputLawAt_iff, houtputs o, hclaims o]
  exact .settled rfl (iff_of_false nofun nofun) (.inr rfl)

/-- In RESET the applied drive is the effective one, and it is when STARTING begins (R103, R132). -/
theorem outputLaw_endReset (hd : s.device = .reset) (hs : s.OutputLaw) : s.endReset.OutputLaw := by
  intro o
  have h : s.endReset.outputs[o].Follows s.endReset.claims[o] s.BaseRecorded := outputLawAt_iff.1 (hs o)
  refine outputLawAt_iff.2 (follows_mono h fun ⟨hstarting, _⟩ => ?_)
  cases hd.symm.trans hstarting

theorem outputLaw_resetEnd (hs : s.OutputLaw) (h : execResetEnd s = .next t) : t.OutputLaw := by
  obtain rfl := Host.Outcome.next.inj h
  split
  · next hd => exact outputLaw_endReset hd (outputLaw_of_eq hs rfl rfl rfl rfl)
  · exact hs

/-- The end of an accepted RESET's reply begins and ends a reset; any other reply leaves the next one to be sent (R131, R144). -/
theorem outputLaw_replySent (hs : s.OutputLaw) (h : execReplySent s = .next t) : t.OutputLaw := by
  obtain rfl := Host.Outcome.next.inj h
  split
  · split
    · split
      · exact outputLaw_endReset rfl (outputLaw_of_cleared (cleared_beginReset s .resetRequest))
      · exact outputLaw_withLink _ hs
    · exact hs
  · exact hs

/-- In STARTING the load only records the bases: every output keeps LEVEL LOW applied (R104, R135). -/
theorem outputLaw_loadPlan (hl : s.Lawful) (hd : s.device = .starting) : (s.loadPlan s.store.selectPlan.1).OutputLaw := by
  intro o
  obtain ⟨base, rate, -, -, hout⟩ := outputs_loadPlan s (accepted_selectPlan s.store) o
  obtain ⟨-, -, flag⟩ := ((dormant_of_lawful hl).asleep (by rw [hd]; nofun)).outputs o
  rw [outputLawAt_iff, hout]
  exact follows_recorded (framed_of_follows (outputLawAt_iff.1 (hl.outputs o))) flag ⟨hd, rfl⟩ base rate

/-- RUNNING begins with every output at its base, which is the effective drive with no claim (R105). -/
theorem outputLaw_enterBlocks (hclaims : ∀ o : Fin 6, s.claims[o] = []) : s.enterBlocks.OutputLaw := by
  intro o
  rw [outputLawAt_iff, outputs_enterBlocks]
  refine follows_immediate ?_
  rw [show s.enterBlocks.claims[o] = [] from hclaims o]
  rfl

theorem outputLaw_bootArm (hs : s.OutputLaw) : s.bootArm.OutputLaw := by
  rw [bootArm_rest]
  exact outputLaw_of_eq hs rfl rfl rfl rfl

theorem outputLaw_planLoadEnd (hl : s.Lawful) (h : execPlanLoadEnd s = .next t) : t.OutputLaw := by
  obtain rfl := Host.Outcome.next.inj h
  split
  · next hd =>
    have hload := untripped_loadPlan s.store.selectPlan.1 (untripped_of_lawful hl hd)
    exact outputLaw_bootArm (outputLaw_of_eq (outputLaw_enterBlocks hload.claims) rfl rfl rfl rfl)
  · exact hl.outputs

theorem outputLaw_tick (hs : s.OutputLaw) : s.tick.OutputLaw := by
  by_cases hd : s.device = .reset
  · rw [tick_of_reset hd]; exact hs
  · rw [tick_of_not_reset hd]
    exact outputLaw_of_eq hs rfl rfl rfl rfl

/-- Nothing is due: a microsecond, or the plan is written in STARTING (R104, R135). -/
theorem outputLaw_pass (hl : s.Lawful) : s.pass.OutputLaw := by
  have hdrawn : s.drawn.Lawful := lawful_with_pending_draws hl s.pending (s.draws + 1)
  by_cases hplan : s.device = .starting ∧ s.planWritten = false
  · obtain ⟨hd, hp⟩ := hplan
    rw [pass_of_unwritten hd hp]
    split
    · exact outputLaw_loadPlan hdrawn hd
    · exact outputLaw_tick hdrawn.outputs
  · rw [pass_of_written hplan]
    exact outputLaw_tick hl.outputs

/-! Commands and steps -/

theorem outputLaw_of_request {f : Frame} {carryOut : State → Answer} (hs : s.OutputLaw)
    (h : Host.Outcome.next (s.request f carryOut) = (.next t : Host.Outcome State Fault Refusal))
    (hk : ∀ u : State, u.OutputLaw → (carryOut u).OutputsLawful) : t.OutputLaw := by
  obtain rfl := Host.Outcome.next.inj h
  exact outputLaw_request f hs hk

theorem outputLaw_unknownRequestCode {tag code : Byte} {params : List Byte} (hs : s.OutputLaw)
    (h : execUnknownRequestCode tag code params s = .next t) : t.OutputLaw := by
  obtain rfl := Host.Outcome.next.inj h
  split
  · exact hs
  · exact outputLaw_request _ hs fun _ _ => trivial

/-- Every command keeps the law of the outputs. -/
theorem outputLaw_exec (i : Instr) (hl : s.Lawful) (h : exec i s = .next t) : t.OutputLaw := by
  have hs := hl.outputs
  cases i with
  | arm tag params => exact outputLaw_of_request hs h fun _ => outputsLawful_armAnswer params
  | clearChannel tag params => exact outputLaw_of_request hs h fun _ => outputsLawful_clearChannelAnswer params
  | clearObserved tag params => exact outputLaw_of_request hs h fun _ => outputsLawful_clearObservedAnswer params
  | configureChannel tag params => exact outputLaw_of_request hs h fun _ => outputsLawful_configureChannelAnswer params
  | definePattern tag params => exact outputLaw_of_request hs h fun _ => outputsLawful_definePatternAnswer params
  | deletePattern tag params => exact outputLaw_of_request hs h fun _ => outputsLawful_deletePatternAnswer params
  | disarm tag params => exact outputLaw_of_request hs h fun _ => outputsLawful_disarmAnswer params
  | erasePlan tag params => exact outputLaw_of_request hs h fun _ => outputsLawful_erasePlanAnswer params
  | fetch tag params =>
    exact outputLaw_of_request hs h fun _ hu =>
      outputsLawful_oneParam params fun _ => outputLaw_of_eq hu rfl rfl rfl rfl
  | identify tag params => exact outputLaw_of_request hs h fun _ hu => outputsLawful_noParams params hu
  | inject tag params => exact outputLaw_of_request hs h fun _ => outputsLawful_injectAnswer params
  | pause tag params => exact outputLaw_of_request hs h fun _ => outputsLawful_pauseAnswer params
  | readChannel tag params => exact outputLaw_of_request hs h fun _ hu => outputsLawful_oneParam params fun _ => hu
  | readLine tag params => exact outputLaw_of_request hs h fun _ hu => outputsLawful_oneParam params fun _ => hu
  | readObserved tag params => exact outputLaw_of_request hs h fun _ => outputsLawful_readObservedAnswer params
  | readOutput tag params => exact outputLaw_of_request hs h fun _ hu => outputsLawful_oneParam params fun _ => hu
  | readPattern tag params => exact outputLaw_of_request hs h fun _ => outputsLawful_readPatternAnswer params
  | readReaction tag params => exact outputLaw_of_request hs h fun _ hu => outputsLawful_oneParam params fun _ => hu
  | rearm tag params => exact outputLaw_of_request hs h fun _ => outputsLawful_rearmAnswer params
  | resetRequest tag params =>
    exact outputLaw_of_request hs h fun _ hu => outputsLawful_noParams params (outputsLawful_whenRunning hu)
  | resume tag params => exact outputLaw_of_request hs h fun _ => outputsLawful_resumeAnswer params
  | savePlan tag params => exact outputLaw_of_request hs h fun _ => outputsLawful_savePlanAnswer params
  | setAttention tag params =>
    exact outputLaw_of_request hs h fun _ hu =>
      outputsLawful_oneParam params fun _ => outputLaw_of_eq hu rfl rfl rfl rfl
  | setLine tag params => exact outputLaw_of_request hs h fun _ => outputsLawful_setLineAnswer params
  | setLink tag params => exact outputLaw_of_request hs h fun _ => outputsLawful_setLinkAnswer params
  | setOutput tag params => exact outputLaw_of_request hs h fun _ => outputsLawful_setOutputAnswer params
  | setReaction tag params => exact outputLaw_of_request hs h fun _ => outputsLawful_setReactionAnswer params
  | status tag params => exact outputLaw_of_request hs h fun _ hu => outputsLawful_noParams params hu
  | rawChange l level => exact outputLaw_of_supervises (supervises_rawChange h) hs
  | qualificationExpiry l => exact outputLaw_of_supervises (supervises_qualificationExpiry h) hs
  | stepDeadline c =>
    obtain rfl := Host.Outcome.next.inj h
    exact outputLaw_of_acts (acts_deliverDeadline .refl) hs
  | acquireExpiry c => exact outputLaw_of_supervises (supervises_acquireExpiry h) hs
  | frameEndExpiry o => exact outputLaw_frameEndExpiry hs h
  | saveCompletion matched => exact outputLaw_saveCompletion hs h
  | secondBankInvalidation => exact outputLaw_secondBankInvalidation hs h
  | eraseCompletion => exact outputLaw_eraseCompletion hs h
  | powerOn =>
    obtain rfl := Host.Outcome.next.inj h
    exact outputLaw_of_cleared (cleared_beginReset s _)
  | resetLine =>
    obtain rfl := Host.Outcome.next.inj h
    exact outputLaw_of_cleared (cleared_beginReset _ _)
  | resetEnd => exact outputLaw_resetEnd hs h
  | planLoadEnd => exact outputLaw_planLoadEnd hl h
  | byteArrival b => exact outputLaw_byteArrival hs h
  | framingFault => exact outputLaw_framingFault hs h
  | gapExpiry => exact outputLaw_gapExpiry hs h
  | replySent => exact outputLaw_replySent hs h
  | silenceExpiry => exact outputLaw_silenceExpiry hs h
  | unknownRequestCode tag code params => exact outputLaw_unknownRequestCode hs h

/-- Every step keeps the law of the outputs. -/
theorem outputLaw_step (hl : s.Lawful) (h : step s = .next t) : t.OutputLaw := by
  obtain ⟨i, pending, draws, h⟩ | rfl := step_cases h
  · exact outputLaw_exec i (lawful_with_pending_draws hl pending draws) h
  · exact outputLaw_pass hl

/-- Settles O11, from the law of the outputs that every step keeps. -/
theorem outputLawKept : Obligations.OutputLawKept := fun _ _ hl h => outputLaw_step hl h

end Sys2Proof.Machine

/-! SET_OUTPUT, the end of a frame, and the level of an output line (R93 to R95, R97 to R99, R102). -/

namespace Sys2Proof.Machine

variable {s : State} {o : Fin 6} {g : Generator} {start : Time}

/-! SET_OUTPUT -/

/-- SET_OUTPUT, as the executor carries it out in RUNNING: every parameter parses, and the generator decides the effect and what
the reply says of it (R97, R173). -/
theorem setOutputAnswer_of_running {base : Drive} {rate : Fin 5} {taken : Taken} (hd : s.device = .running)
    (hset : s.outputs[o].setBase s.time (!s.claims[o].isEmpty) base rate = (g, taken)) :
    setOutputAnswer ([byte o] ++ be16 base.code ++ [byte rate]) s =
      .ok ([byte o, taken.toByte] ++ optional (if taken = .atFrameEnd then g.frameEnd.map time32 else none) 4)
        (s.putOutput o g) := by
  simp only [be16, List.cons_append, List.nil_append, setOutputAnswer, finOf_byte 6 o (by decide), driveOf_bytes,
    finOf_byte 5 rate (by decide), whenRunning, hd, if_true, hset]

section
variable {tag : Byte} {base : Drive} {rate : Fin 5} {rest : List Frame} {params : List Byte} {claimed : Bool}
  (hparams : params = [byte o] ++ be16 base.code ++ [byte rate]) (hready : s.Ready ⟨tag, 0x68, params⟩ rest)
  (hclaimed : (!s.claims[o].isEmpty) = claimed)
include hparams hready hclaimed

theorem setOutput_answered {taken : Taken} (hset : s.outputs[o].setBase s.time claimed base rate = (g, taken)) :
    exec (.setOutput tag params) s =
      .next { s.answered rest tag
          ([byte o, taken.toByte] ++ optional (if taken = .atFrameEnd then g.frameEnd.map time32 else none) 4) with
        outputs := s.outputs.set o g } := by
  obtain ⟨htakes, hd⟩ := hready
  subst hclaimed hparams
  exact congrArg _ (request_accepted htakes (setOutputAnswer_of_running (s := s.taken rest) hd hset) rfl rfl)

/-- A change at the awaited frame end reports when that is (R97). -/
theorem setOutput_atFrameEnd (hset : s.outputs[o].setBase s.time claimed base rate = (g, .atFrameEnd))
    (hstart : g.frameStart = some start) :
    exec (.setOutput tag params) s =
      .next { s.answered rest tag ([byte o, 1, 1] ++ be32 (after start (256 * 2 ^ g.rate.val)).toNat) with
        outputs := s.outputs.set o g } := by
  rw [setOutput_answered hparams hready hclaimed hset, if_pos rfl, Generator.frameEnd, hstart]
  rfl

/-- A change recorded, or applied at once, reports no frame end (R97). -/
theorem setOutput_now {taken : Taken} (hset : s.outputs[o].setBase s.time claimed base rate = (g, taken))
    (htaken : taken ≠ .atFrameEnd) :
    exec (.setOutput tag params) s =
      .next { s.answered rest tag [byte o, taken.toByte, 0, 0, 0, 0, 0] with outputs := s.outputs.set o g } := by
  rw [setOutput_answered hparams hready hclaimed hset, if_neg htaken]
  rfl

end

/-- Settles O46: the five outcomes of the generator's base change, each with its reply. -/
theorem setOutputTakesEffect : Obligations.SetOutputTakesEffect := by
  rintro s tag o base rate params rest g rfl hparams hready
  have hheld (h : s.claims[o] ≠ []) : (!s.claims[o].isEmpty) = true := (claimed_iff _).2 h
  have hfree (h : s.claims[o] = []) : (!s.claims[o].isEmpty) = false := by rw [h]; rfl
  refine ⟨fun hrate hclaims => ?_, fun hrate hclaims happlied hbase start hstart => ?_, fun hrate hclaims hlevel => ?_,
    fun hrate hclaims => ?_, fun hrate hclaims => ?_⟩
  · exact setOutput_now hparams hready (hheld hclaims) (setBase_recorded hrate) nofun
  · exact setOutput_atFrameEnd hparams hready (hfree hclaims) (setBase_waits hrate happlied hbase) hstart
  · have hnot : ¬(s.outputs[o].applied.isDuty = true ∧ base.isDuty = true) := by
      rw [← Bool.and_eq_true_iff, Bool.not_eq_true, Bool.and_eq_false_iff]
      exact hlevel
    exact setOutput_now hparams hready (hfree hclaims) (setBase_applied hrate hnot) nofun
  · exact setOutput_now hparams hready (hfree hclaims) (setBase_newRate hrate) nofun
  · exact setOutput_now hparams hready (hheld hclaims) (setBase_newRate_claimed hrate) nofun

/-! The end of a frame -/

/-- Without a waiting base the frame that follows is of the drive applied (R95). -/
theorem nextFrame_unchanged (flag : g.pending = false) :
    g.nextFrame start = { g with frameStart := some (after start (frameLength g.rate)) } := by
  unfold Generator.nextFrame
  rw [if_neg (by rw [flag]; exact Bool.false_ne_true)]

/-- A waiting base of DUTY is applied in the frame that follows (R95, R100). -/
theorem nextFrame_waiting (flag : g.pending = true) (hbase : g.base.isDuty = true) :
    g.nextFrame start =
      { g with applied := g.base, pending := false, frameStart := some (after start (frameLength g.rate)) } := by
  unfold Generator.nextFrame Generator.apply
  rw [if_pos flag, if_pos hbase]

theorem frameEndExpiry_without_frame (h : s.outputs[o].frameStart = none) : exec (.frameEndExpiry o) s = .next s := by
  show Host.Outcome.next _ = _
  rw [h]

theorem frameEndExpiry_of_frame (h : s.outputs[o].frameStart = some start) :
    exec (.frameEndExpiry o) s = .next
      (if reached s.time (after start (frameLength s.outputs[o].rate)) then
        s.putOutput o (s.outputs[o].nextFrame start)
      else s) := by
  show Host.Outcome.next _ = _
  rw [h]

/-- Settles O59: no frame, an expiry not reached, and one reached without and with a waiting base. -/
theorem framesFollowWithoutGap : Obligations.FramesFollowWithoutGap := by
  rintro s o g rfl
  refine ⟨frameEndExpiry_without_frame, fun start ends hstart hends => ?_⟩
  obtain rfl : ends = after start (frameLength s.outputs[o].rate) := hends
  have hexpiry := frameEndExpiry_of_frame hstart
  refine ⟨fun hr => ?_, fun hr flag => ?_, fun hr flag hbase => ?_⟩
  · rw [hexpiry, if_neg (by rw [hr]; exact Bool.false_ne_true)]
  · rw [hexpiry, if_pos hr, nextFrame_unchanged flag]
    rfl
  · rw [hexpiry, if_pos hr, nextFrame_waiting flag hbase]
    rfl

/-! The waveform of a frame -/

/-- The high count is the coarse part, and one more in the sub-periods that the fine part picks (R94). -/
theorem highCount_eq (d : BitVec 12) (i : Nat) :
    highCount d i = d.toNat / 16 + (if rev4 i < d.toNat % 16 then 1 else 0) := by
  unfold highCount
  split <;> rfl

theorem highCount_le (d : BitVec 12) (i : Nat) : highCount d i ≤ 256 := by
  have hd : d.toNat < 4096 := d.isLt
  rw [highCount_eq]
  split <;> omega

/-- Step `j` of sub-period `i` (R94). -/
theorem highInStep_iff (d : BitVec 12) (i : Nat) {j : Nat} (hj : j < 256) :
    highInStep d (256 * i + j) = true ↔ j < highCount d i := by
  have hstep : (256 * i + j) % 256 = j := by omega
  have hperiod : (256 * i + j) / 256 = i := by omega
  unfold highInStep
  rw [hstep, hperiod, decide_eq_true_eq]

/-- The reversal takes each of the 16 values once, so it is below `f` in `f` sub-periods (R94). -/
theorem sum_rev4_below : ∀ f : Nat, f < 16 → ((List.range 16).map fun i => if rev4 i < f then 1 else 0).sum = f := by
  decide

/-- A frame of DUTY d is high for d of its steps: the coarse part in each of 16 sub-periods, and the fine part once more. -/
theorem sum_highCount (d : BitVec 12) : ((List.range 16).map (highCount d)).sum = d.toNat := by
  have hfine := sum_rev4_below (d.toNat % 16) (Nat.mod_lt _ (by decide))
  calc ((List.range 16).map (highCount d)).sum
      = ((List.range 16).map fun i => d.toNat / 16 + if rev4 i < d.toNat % 16 then 1 else 0).sum := by
        rw [funext (highCount_eq d)]
    _ = ((List.range 16).map fun _ => d.toNat / 16).sum +
          ((List.range 16).map fun i => if rev4 i < d.toNat % 16 then 1 else 0).sum := List.sum_map_add
    _ = 16 * (d.toNat / 16) + d.toNat % 16 := by
        rw [hfine, List.map_const', List.sum_replicate, List.length_range, smul_eq_mul]
    _ = d.toNat := Nat.div_add_mod d.toNat 16

/-! The level of an output line -/

section
variable (x : Nat)

/-- An output is low in RESET and STARTING (R104). -/
theorem outLevel_of_not_running (hd : s.device ≠ .running) : s.outLevel o x = .low := by
  unfold State.outLevel
  split
  · next h _ => exact absurd h hd
  · next h _ _ => exact absurd h hd
  · rfl

theorem outLevel_of_level {level : Level} (hd : s.device = .running) (happlied : s.outputs[o].applied = .level level) :
    s.outLevel o x = level := by
  unfold State.outLevel
  rw [hd, happlied]

theorem outLevel_of_duty {d : BitVec 12} (hd : s.device = .running) (happlied : s.outputs[o].applied = .duty d)
    (hstart : s.outputs[o].frameStart = some start) :
    s.outLevel o x =
      if highInStep d ((elapsed s.time start * 16 + x) / 2 ^ s.outputs[o].rate.val % 4096) then .high else .low := by
  unfold State.outLevel
  rw [hd, happlied, hstart]

end

/-- Settles O60: the counts of the 16 sub-periods, their sum, and the line's level by device state and drive. -/
theorem theOutputLineFollowsItsDrive : Obligations.TheOutputLineFollowsItsDrive := by
  refine ⟨⟨by decide, fun d => ⟨fun i _ => ⟨highCount_eq d i, highCount_le d i, fun j hj => highInStep_iff d i hj⟩,
    sum_highCount d⟩⟩, fun s o x => ⟨outLevel_of_not_running x, fun level => outLevel_of_level x,
    fun d start hd happlied hstart => ?_⟩⟩
  rw [outLevel_of_duty x hd happlied hstart]
  split
  · next hhigh => exact iff_of_true rfl hhigh
  · next hlow => exact iff_of_false nofun hlow

end Sys2Proof.Machine

/-! The Notice Queue by itself: an offer admitted or dropped, a FETCH from the front, and the laws of the list that both keep
(R109 to R112, R114). -/

namespace Sys2Proof.Machine

variable {q r : Queue} {now : Time} {origin : NoticeSource} {body : NoticeBody} {src : Source} {ns : List Notice}

/-- Settles O56: what an offer is, below the limit and at it. -/
theorem offeredNoticesAreAdmittedOrDropped : Obligations.OfferedNoticesAreAdmittedOrDropped := by
  rintro q now origin body n rfl
  exact ⟨offer_admitted q now origin body, offer_dropped q now origin body⟩

/-! Sequence numbers -/

/-- The sequence law place by place: a notice carries the next sequence number minus its distance from the end (R112). -/
theorem sequenceLaw_iff (q : Queue) :
    q.SequenceLaw ↔ ∀ (i : Nat) (h : i < q.notices.length),
      q.notices[i].sequence = q.nextSeq - BitVec.ofNat 16 (q.notices.length - i) := by
  unfold Queue.SequenceLaw
  constructor
  · intro h i hi
    have hplace := congrArg (fun numbers => numbers[i]?) h
    simpa [hi] using hplace
  · intro h
    refine List.ext_getElem (by simp) fun i hi _ => ?_
    simpa using h i (by simpa using hi)

/-- An admitted notice takes the next sequence number, and the distances of the others grow with it (R109). -/
theorem sequenceLaw_append {n : Notice} (hn : n.sequence = q.nextSeq) (hq : q.SequenceLaw) :
    ({ q with notices := q.notices ++ [n], nextSeq := q.nextSeq + 1 } : Queue).SequenceLaw := by
  rw [sequenceLaw_iff] at hq ⊢
  intro i hi
  have hlength : (q.notices ++ [n]).length = q.notices.length + 1 := List.length_append
  have hdistance (d : Nat) : q.nextSeq - BitVec.ofNat 16 d = q.nextSeq + 1 - BitVec.ofNat 16 (d + 1) := by
    rw [BitVec.ofNat_add]
    exact (add_sub_add_right_eq_sub _ _ _).symm
  simp only [hlength] at hi ⊢
  by_cases hold : i < q.notices.length
  · rw [List.getElem_append_left hold, hq i hold, hdistance, Nat.sub_add_comm (Nat.le_of_lt hold)]
  · obtain rfl : i = q.notices.length := by omega
    rw [List.getElem_concat_length rfl, hn, Nat.add_sub_cancel_left]
    simp

/-- The notices behind those fetched keep their distances from the end (R114). -/
theorem sequenceLaw_drop (n : Nat) (dropped : Count16) (hq : q.SequenceLaw) :
    ({ q with notices := q.notices.drop n, dropped } : Queue).SequenceLaw := by
  rw [sequenceLaw_iff] at hq ⊢
  intro i hi
  have hlength : (q.notices.drop n).length = q.notices.length - n := List.length_drop
  simp only [hlength] at hi ⊢
  rw [List.getElem_drop, hq (n + i) (by omega), Nat.sub_sub]

/-! Counts -/

/-- An offer that is not a TRIP adds no TRIP notice. -/
theorem tripCount_offer (hbody : (q.next now origin body).isTrip = false) (src : Source) :
    tripCount (q.offer now origin body).notices src = tripCount q.notices src := by
  by_cases hroom : nonTripCount q.notices < 39
  · rw [offer_admitted q now origin body (.inr hroom), tripCount_append, hbody]
    rfl
  · rw [offer_dropped q now origin body hbody (Nat.le_of_not_lt hroom)]

/-- An offered TRIP of one source adds no TRIP notice of another. -/
theorem tripCount_offer_trip {x : Source} (hbody : (q.next now (.trip src) body).isTrip = true) (hx : x ≠ src) :
    tripCount (q.offer now (.trip src) body).notices x = tripCount q.notices x := by
  have hother : (q.next now (.trip src) body).source ≠ .trip x := fun h => hx (NoticeSource.trip.inj h).symm
  rw [offer_admitted q now _ body (.inl hbody), tripCount_append]
  simp [hother]

/-- The sources that can trip: CH0 to CH7, and LINK (R76). -/
def tripSources : List Source := .link :: (List.finRange 8).map .channel

theorem mem_tripSources (src : Source) : src ∈ tripSources := by
  cases src with
  | channel c => exact List.mem_cons_of_mem _ (List.mem_map.2 ⟨c, List.mem_finRange c, rfl⟩)
  | link => exact List.mem_cons_self

theorem count_tripNotices (ns : List Notice) (x : NoticeSource) :
    ((ns.filter (·.isTrip)).map (·.source)).count x = ns.countP fun n => n.isTrip && n.source = x := by
  rw [List.count, List.countP_map, List.countP_filter]
  refine List.countP_congr fun n _ => ?_
  simp [and_comm]

/-- With at most one TRIP notice from each of the nine sources, at most nine notices are TRIPs (R111). -/
theorem tripNotices_le (htrips : ∀ src, tripCount ns src ≤ 1)
    (hsources : ∀ n ∈ ns, n.isTrip = true → n.source ≠ .device) : ns.countP (·.isTrip) ≤ 9 := by
  have hnodup : ((ns.filter (·.isTrip)).map (·.source)).Nodup := by
    refine List.nodup_iff_count_le_one.2 fun x => ?_
    rw [count_tripNotices]
    cases x with
    | trip src => exact htrips src
    | device =>
      refine (List.countP_eq_zero.2 fun n hn h => ?_).trans_le (Nat.zero_le 1)
      obtain ⟨htrip, hdevice⟩ := Bool.and_eq_true_iff.1 h
      exact hsources n hn htrip (of_decide_eq_true hdevice)
  have hsubset : (ns.filter (·.isTrip)).map (·.source) ⊆ tripSources.map .trip := by
    intro x hx
    obtain ⟨n, hn, rfl⟩ := List.mem_map.1 hx
    obtain ⟨hmem, htrip⟩ := List.mem_filter.1 hn
    cases hsource : n.source with
    | trip src => exact List.mem_map.2 ⟨src, mem_tripSources src, rfl⟩
    | device => exact absurd hsource (hsources n hmem htrip)
  have hlength := (hnodup.subperm hsubset).length_le
  rw [List.length_map, ← List.countP_eq_length_filter] at hlength
  exact hlength

/-! The laws of the list -/

/-- The laws that the list keeps by itself: R111's limits for TRIP notices and for the others, and R112's numbers. -/
structure Queue.Lawful (q : Queue) : Prop where
  nonTrips : nonTripCount q.notices ≤ 39
  trips : ∀ src : Source, tripCount q.notices src ≤ 1
  sources : ∀ n ∈ q.notices, n.isTrip = true → n.source ≠ .device
  sequence : q.SequenceLaw

/-- At most 39 non-TRIP notices and nine TRIP notices are at most 48 (R111). -/
theorem admissionLaw_of_lawful (hq : q.Lawful) : q.AdmissionLaw := by
  refine ⟨hq.nonTrips, hq.trips, hq.sources, ?_⟩
  have htrips := tripNotices_le hq.trips hq.sources
  have hothers : q.notices.countP (fun n => !n.isTrip) ≤ 39 := hq.nonTrips
  have hsplit := List.length_eq_countP_add_countP (fun n : Notice => n.isTrip) (l := q.notices)
  simp only [Bool.not_eq_true, Bool.decide_eq_false] at hsplit
  omega

theorem queueLawful_of_eq (hq : q.Lawful) (hnotices : r.notices = q.notices) (hnext : r.nextSeq = q.nextSeq) :
    r.Lawful := by
  have hsequence := hq.sequence
  unfold Queue.SequenceLaw at hsequence
  refine ⟨?_, ?_, ?_, ?_⟩
  · rw [hnotices]; exact hq.nonTrips
  · rw [hnotices]; exact hq.trips
  · rw [hnotices]; exact hq.sources
  · unfold Queue.SequenceLaw
    rw [hnotices, hnext]
    exact hsequence

theorem queueLawful_empty (hnotices : q.notices = []) : q.Lawful := by
  refine ⟨?_, fun src => ?_, ?_, ?_⟩
  · rw [hnotices]; exact Nat.zero_le 39
  · rw [hnotices]; exact Nat.zero_le 1
  · rw [hnotices]; nofun
  · unfold Queue.SequenceLaw
    rw [hnotices]
    rfl

/-- An offer that is not a TRIP is admitted below the limit, and dropped at it (R109, R110). -/
theorem queueLawful_offer (hbody : (q.next now origin body).isTrip = false) (hq : q.Lawful) :
    (q.offer now origin body).Lawful := by
  by_cases hroom : nonTripCount q.notices < 39
  · have htrips := tripCount_offer (q := q) hbody
    rw [offer_admitted q now origin body (.inr hroom)] at htrips ⊢
    refine ⟨?_, fun src => (htrips src).trans_le (hq.trips src), ?_, sequenceLaw_append rfl hq.sequence⟩
    · rw [nonTripCount_append, hbody]
      exact hroom
    · intro n hn htrip
      obtain hold | rfl := List.mem_append.1 hn |>.imp id List.mem_singleton.1
      · exact hq.sources n hold htrip
      · rw [hbody] at htrip; cases htrip
  · rw [offer_dropped q now origin body hbody (Nat.le_of_not_lt hroom)]
    exact queueLawful_of_eq hq rfl rfl

/-- A TRIP is offered by a source with no pending TRIP notice (R111). -/
theorem queueLawful_offer_trip (hbody : (q.next now (.trip src) body).isTrip = true) (hnone : tripCount q.notices src = 0)
    (hq : q.Lawful) : (q.offer now (.trip src) body).Lawful := by
  have hothers (x : Source) := tripCount_offer_trip (q := q) (x := x) hbody
  rw [offer_admitted q now (.trip src) body (.inl hbody)] at hothers ⊢
  refine ⟨?_, fun x => ?_, ?_, sequenceLaw_append rfl hq.sequence⟩
  · rw [nonTripCount_append, hbody]
    exact hq.nonTrips
  · by_cases hx : x = src
    · subst hx
      rw [tripCount_append, hnone]
      split <;> omega
    · rw [hothers x hx]
      exact hq.trips x
  · intro n hn htrip
    obtain hold | rfl := List.mem_append.1 hn |>.imp id List.mem_singleton.1
    · exact hq.sources n hold htrip
    · nofun

theorem queueLawful_fetch (n : Nat) (dropped : Count16) (hq : q.Lawful) :
    ({ q with notices := q.notices.drop n, dropped } : Queue).Lawful :=
  ⟨(List.drop_sublist n _).countP_le.trans hq.nonTrips,
    fun src => (List.drop_sublist n _).countP_le.trans (hq.trips src),
    fun x hx => hq.sources x (List.mem_of_mem_drop hx), sequenceLaw_drop n dropped hq.sequence⟩

end Sys2Proof.Machine

/-! The Notice Queue through trips, reports, requests, events and time: every step keeps the admission law, the sequence numbers,
and the rule that a source that could trip has no pending TRIP notice (R109 to R112). -/

namespace Sys2Proof.Machine

variable {s t : State} {src : Source} {c : Fin 8}

/-! The laws of the notices -/

/-- The source could trip: a channel in SEEKING, TRACKING or PAUSED, and LINK outside TRIPPED (R68, R71, R148). -/
def State.CouldTrip (s : State) : Source → Prop
  | .channel c => s.channels[c].state ≠ .idle ∧ s.channels[c].state ≠ .tripped
  | .link => s.link.source ≠ .tripped

theorem couldTrip_channel (s : State) (c : Fin 8) :
    s.CouldTrip (.channel c) ↔ s.channels[c].state ≠ .idle ∧ s.channels[c].state ≠ .tripped := Iff.rfl

theorem couldTrip_link (s : State) : s.CouldTrip .link ↔ s.link.source ≠ .tripped := Iff.rfl

/-- The laws of the notices together: those of the list, and no pending TRIP notice of a source that could trip (R111). -/
structure State.NoticeLaw (s : State) : Prop where
  queue : s.queue.Lawful
  pending : ∀ src, s.CouldTrip src → tripCount s.queue.notices src = 0

theorem noticeLaw_of_lawful (hl : s.Lawful) : s.NoticeLaw := by
  obtain ⟨hnonTrips, htrips, hsources, -⟩ := hl.admission
  obtain ⟨hchannels, hlink⟩ := hl.pending
  refine ⟨⟨hnonTrips, htrips, hsources, hl.sequence⟩, fun src hcould => ?_⟩
  cases src with
  | channel c =>
    obtain ⟨hidle, htripped⟩ := hcould
    exact hchannels c hidle htripped
  | link => exact hlink hcould

theorem pendingLaw_of_noticeLaw (hs : s.NoticeLaw) : s.PendingLaw :=
  ⟨fun c hidle htripped => hs.pending (.channel c) ⟨hidle, htripped⟩, hs.pending .link⟩

/-- Which sources could trip follows from the channel states and from whether LINK is TRIPPED. -/
theorem couldTrip_congr (hchannels : ∀ c : Fin 8, t.channels[c].state = s.channels[c].state)
    (hlink : s.link.SameTrip t.link) (src : Source) : t.CouldTrip src ↔ s.CouldTrip src := by
  cases src with
  | channel c => rw [couldTrip_channel, couldTrip_channel, hchannels c]
  | link => exact not_congr hlink

/-- The laws of the notices read the list, the next number, the channel states and whether LINK is TRIPPED. -/
theorem noticeLaw_congr (hs : s.NoticeLaw) (hnotices : t.queue.notices = s.queue.notices)
    (hnext : t.queue.nextSeq = s.queue.nextSeq) (hchannels : ∀ c : Fin 8, t.channels[c].state = s.channels[c].state)
    (hlink : s.link.SameTrip t.link) : t.NoticeLaw := by
  refine ⟨queueLawful_of_eq hs.queue hnotices hnext, fun src hcould => ?_⟩
  rw [hnotices]
  exact hs.pending src ((couldTrip_congr hchannels hlink src).1 hcould)

theorem noticeLaw_of_eq (hs : s.NoticeLaw) (hqueue : t.queue = s.queue) (hchannels : t.channels = s.channels)
    (hlink : t.link.source = s.link.source) : t.NoticeLaw :=
  noticeLaw_congr hs (by rw [hqueue]) (by rw [hqueue]) (fun c => by rw [hchannels]) (by unfold Link.SameTrip; rw [hlink])

theorem noticeLaw_withLink {k : Link} (hs : s.NoticeLaw) (hk : s.link.SameTrip k) :
    ({ s with link := k } : State).NoticeLaw :=
  noticeLaw_congr hs rfl rfl (fun _ => rfl) hk

/-- Only the source `src` has changed whether it could trip, and only the number of its own TRIP notices. -/
theorem noticeLaw_of_source (src : Source) (hs : s.NoticeLaw) (hqueue : t.queue.Lawful)
    (hsrc : t.CouldTrip src → tripCount t.queue.notices src = 0)
    (hothers : ∀ x, x ≠ src → tripCount t.queue.notices x = tripCount s.queue.notices x ∧ (t.CouldTrip x → s.CouldTrip x)) :
    t.NoticeLaw := by
  refine ⟨hqueue, fun x hx => ?_⟩
  by_cases he : x = src
  · subst he
    exact hsrc hx
  · obtain ⟨hcount, hcould⟩ := hothers x he
    rw [hcount]
    exact hs.pending x (hcould hx)

/-- In a turn of channel `c` no other source changes whether it could trip. -/
theorem couldTrip_of_turn (h : s.TurnOf c t) (hsrc : src ≠ .channel c) : t.CouldTrip src ↔ s.CouldTrip src := by
  cases src with
  | channel d => rw [couldTrip_channel, couldTrip_channel, h.others d fun e => hsrc (by rw [e])]
  | link => rw [couldTrip_link, couldTrip_link, h.link]

/-- A turn of a channel that offers nothing, and leaves the channel unable to trip or was free of a pending TRIP notice. -/
theorem noticeLaw_of_turn (hs : s.NoticeLaw) (h : s.TurnOf c t) (hqueue : t.queue = s.queue)
    (hstate : t.CouldTrip (.channel c) → tripCount s.queue.notices (.channel c) = 0) : t.NoticeLaw := by
  refine noticeLaw_of_source (.channel c) hs ?_ ?_ fun x hx => ⟨?_, (couldTrip_of_turn h hx).1⟩
  · rw [hqueue]; exact hs.queue
  · rw [hqueue]; exact hstate
  · rw [hqueue]

/-- A record that leaves the channel unable to trip, or is of a channel free of a pending TRIP notice. -/
theorem noticeLaw_putChannel {x : Channel} (hs : s.NoticeLaw)
    (hx : x.state ≠ .idle → x.state ≠ .tripped → tripCount s.queue.notices (.channel c) = 0) :
    (s.putChannel c x).NoticeLaw := by
  refine noticeLaw_of_turn hs (turn_putChannel s c x) rfl fun hcould => ?_
  rw [couldTrip_channel, channels_get_putChannel_self] at hcould
  obtain ⟨hidle, htripped⟩ := hcould
  exact hx hidle htripped

theorem noticeLaw_putChannel_same {x : Channel} (hs : s.NoticeLaw) (hx : x.state = s.channels[c].state) :
    (s.putChannel c x).NoticeLaw :=
  noticeLaw_putChannel hs (by rw [hx]; exact fun hidle htripped => hs.pending (.channel c) ⟨hidle, htripped⟩)

theorem noticeLaw_seek (hs : s.NoticeLaw) (hnone : tripCount s.queue.notices (.channel c) = 0) : (s.seek c).NoticeLaw :=
  noticeLaw_putChannel hs fun _ _ => hnone

/-- A report, a MARK, a STARTED or a STORE is offered (R109). -/
theorem noticeLaw_offer {now : Time} {origin : NoticeSource} {body : NoticeBody} (hs : s.NoticeLaw)
    (hbody : (s.queue.next now origin body).isTrip = false) : (s.offer now origin body).NoticeLaw :=
  ⟨queueLawful_offer hbody hs.queue, fun src hcould => (tripCount_offer hbody src).trans (hs.pending src hcould)⟩

/-- A source that could trip has tripped, and its TRIP notice is offered (R68, R148). -/
theorem noticeLaw_of_trip (hs : s.NoticeLaw) (hbefore : s.CouldTrip src)
    (hoffer : ∃ now body, t.queue = s.queue.offer now (.trip src) body ∧ (s.queue.next now (.trip src) body).isTrip = true)
    (hafter : ¬t.CouldTrip src) (hothers : ∀ x, x ≠ src → t.CouldTrip x → s.CouldTrip x) : t.NoticeLaw := by
  obtain ⟨now, body, hqueue, hbody⟩ := hoffer
  refine noticeLaw_of_source src hs ?_ (fun h => absurd h hafter) fun x hx => ⟨?_, hothers x hx⟩
  · rw [hqueue]
    exact queueLawful_offer_trip hbody (hs.pending src hbefore) hs.queue
  · rw [hqueue]
    exact tripCount_offer_trip hbody hx

/-! Trips and reports -/

theorem couldTrip_of_supervising (h : s.channels[c].state.supervising = true) : s.CouldTrip (.channel c) :=
  ⟨(fun hidle => by rw [hidle] at h; exact Bool.false_ne_true h), not_tripped_of_supervising h⟩

/-- The TRIP notice of a channel (R68). -/
theorem queue_tripChannel (s : State) (c : Fin 8) (dev : Deviation) :
    (s.tripChannel c dev).queue =
      s.queue.offer dev.time (.trip (.channel c))
        (.tripChannel dev.kind dev.step dev.measured s.channels[c].strikes
          (s.reactionCount (.channel c))) := rfl

/-- The TRIP notice of LINK (R148). -/
theorem queue_tripLink (s : State) :
    s.tripLink.queue = s.queue.offer s.time (.trip .link) (.tripLink s.link.timeout (s.reactionCount .link)) := rfl

/-- At the strike limit the channel trips with its TRIP notice; below it the channel may report, and seeks (R64, R68). -/
theorem noticeLaw_handleDeviation (dev : Deviation) (hcould : s.CouldTrip (.channel c)) (hs : s.NoticeLaw) :
    (s.handleDeviation c dev).NoticeLaw := by
  cases hc : s.channels[c].config with
  | none =>
    have he : s.handleDeviation c dev = s := by unfold State.handleDeviation; rw [hc]
    rw [he]
    exact hs
  | some cfg =>
    by_cases hlimit : s.channels[c].strikes + 1 = cfg.strikeLimit
    · have hstate := handleDeviation_state s c dev cfg hc
      rw [if_pos hlimit] at hstate
      have hoffer := (congrArg State.queue (handleDeviation_trip s c dev cfg hc hlimit)).trans (queue_tripChannel _ c dev)
      exact noticeLaw_of_trip hs hcould ⟨dev.time, _, hoffer, rfl⟩ (fun ⟨_, htripped⟩ => htripped hstate)
        fun _ hx => (couldTrip_of_turn (turn_handleDeviation s c dev) hx).1
    · have hstruck : (s.putChannel c (s.channels[c].struck dev)).NoticeLaw := noticeLaw_putChannel_same hs rfl
      have hnone := hs.pending (.channel c) hcould
      rw [handleDeviation_seek s c dev cfg hc hlimit]
      split
      · exact noticeLaw_seek (noticeLaw_offer hstruck rfl) ((tripCount_offer rfl _).trans hnone)
      · exact noticeLaw_seek hstruck hnone

/-- The Channel Engine keeps the laws of the notices on every edge and expiry. -/
theorem noticeLaw_of_supervises (h : s.Supervises t) (hs : s.NoticeLaw) : t.NoticeLaw := by
  induction h with
  | refl => exact hs
  | line l x _ ih => exact noticeLaw_of_eq ih rfl rfl rfl
  | record hx _ ih =>
    obtain hsame | ⟨hbefore, -⟩ := hx
    · exact noticeLaw_putChannel_same ih hsame
    · exact noticeLaw_putChannel ih fun _ _ => ih.pending _ (couldTrip_of_supervising hbefore)
  | deviation dev hk _ ih => exact noticeLaw_handleDeviation dev (couldTrip_of_supervising hk) ih
  | mark now c k d cycles _ ih => exact noticeLaw_offer ih rfl
  | choose n _ ih => exact noticeLaw_of_eq ih rfl rfl rfl

/-- LINK outside TRIPPED trips (R148). -/
theorem noticeLaw_tripLink (hcould : s.CouldTrip .link) (hs : s.NoticeLaw) : s.tripLink.NoticeLaw := by
  refine noticeLaw_of_trip (src := .link) hs hcould ⟨s.time, _, queue_tripLink s, rfl⟩ (fun h => h rfl) fun x hx => ?_
  cases x with
  | channel c => exact id
  | link => exact absurd rfl hx

/-! Arming, disarming and rearming -/

/-- ARM is carried out only without a pending TRIP notice of the channel (R36). -/
theorem noticeLaw_armChannel (hnone : tripCount s.queue.notices (.channel c) = 0) (hs : s.NoticeLaw) :
    (s.armChannel c).NoticeLaw :=
  noticeLaw_of_turn hs (turn_armChannel s c) rfl fun _ => hnone

/-- A channel in IDLE could not trip (R40). -/
theorem noticeLaw_disarm (c : Fin 8) (hs : s.NoticeLaw) : (s.disarm c).NoticeLaw := by
  have hput : (s.putChannel c { s.channels[c] with state := .idle, strikes := 0, goodRun := 0 }).NoticeLaw :=
    noticeLaw_putChannel hs fun hidle => absurd rfl hidle
  unfold State.disarm
  simp only
  split
  · exact hs
  · split
    · exact noticeLaw_of_eq hput rfl rfl rfl
    · exact hput

/-- REARM is carried out only without a pending TRIP notice of the source (R70, R72, R150). -/
theorem noticeLaw_rearm (hnone : tripCount s.queue.notices src = 0) (hs : s.NoticeLaw) : (s.rearm src).NoticeLaw := by
  have hqueue : (s.rearm src).queue = s.queue := by cases src <;> rfl
  refine noticeLaw_of_source src hs ?_ ?_ fun x hx => ⟨by rw [hqueue], fun hcould => ?_⟩
  · rw [hqueue]; exact hs.queue
  · rw [hqueue]; exact fun _ => hnone
  · cases x with
    | channel d =>
      rw [couldTrip_channel, channel_rearm, if_neg (Ne.symm hx)] at hcould
      exact hcould
    | link =>
      rw [couldTrip_link, link_rearm, if_neg (Ne.symm hx)] at hcould
      exact hcould

/-! Requests -/

/-- The effect of an answer meets `P`; a refusal has no effect. -/
def Answer.Yields (P : State → Prop) : Answer → Prop
  | .refuse _ => True
  | .ok _ t => P t
  | .okThenReset t => P t

section
variable {P : State → Prop}

theorem yields_whenRunning {a : Answer} (h : a.Yields P) : (whenRunning s a).Yields P := by
  unfold whenRunning
  split
  · exact h
  · trivial

theorem yields_noParams (params : List Byte) {a : Answer} (h : a.Yields P) : (noParams params a).Yields P := by
  unfold noParams
  split
  · exact h
  · trivial

theorem yields_oneParam {α : Type} (params : List Byte) {parse : Byte → Option α} {k : α → Answer}
    (h : ∀ x, (k x).Yields P) : (oneParam params s parse k).Yields P := by
  unfold oneParam
  split
  · split
    · exact yields_whenRunning (h _)
    · trivial
  · trivial

/-- A request keeps `P` when what the executor carries out keeps it, and so does any change of the link by which LINK neither
trips nor leaves TRIPPED. -/
theorem request_keeps (hlink : ∀ (u : State) (k : Link), P u → u.link.SameTrip k → P { u with link := k }) (f : Frame)
    {carryOut : State → Answer} (hs : P s) (h : ∀ u : State, P u → (carryOut u).Yields P) : P (s.request f carryOut) := by
  have hanswer (u : State) (hu : P u) (a : Answer) (ha : a.Yields P) : P (u.answer f.tag a) := by
    cases a with
    | refuse status => exact hlink u _ hu (sameTrip_refl _)
    | ok data t => exact hlink t _ ha (sameTrip_refl _)
    | okThenReset t => exact hlink t _ ha (sameTrip_refl _)
  obtain ⟨-, he⟩ | ⟨-, l, hl, hcase⟩ := request_cases s f carryOut
  · rw [he]; exact hs
  · have hsame : s.link.SameTrip l := by
      obtain ⟨-, rfl⟩ | ⟨-, rfl⟩ := hl
      · exact sameTrip_refl _
      · exact sameTrip_goodFrame s.link s.time f
    obtain he | ⟨rest, -, -, he⟩ := hcase
    · rw [he]; exact hlink s l hs hsame
    · have htaken : P { s with link := { l with inbox := rest } } := hlink s _ hs hsame
      rw [he]
      exact hanswer _ htaken _ (h _ htaken)

end

/-- The effect of an answer keeps the laws of the notices. -/
abbrev Answer.NoticesLawful (a : Answer) : Prop := a.Yields State.NoticeLaw

variable (params : List Byte)

/-! Requests of the channels and the sources -/

theorem noticesLawful_configureChannelAnswer (hs : s.NoticeLaw) : (configureChannelAnswer params s).NoticesLawful := by
  unfold configureChannelAnswer
  split
  · split
    · refine yields_whenRunning ?_
      split
      · trivial
      · split
        · trivial
        · exact noticeLaw_putChannel_same hs rfl
    · trivial
  · trivial

theorem noticesLawful_clearChannelAnswer (hs : s.NoticeLaw) : (clearChannelAnswer params s).NoticesLawful := by
  refine yields_oneParam params fun c => ?_
  split
  · trivial
  · split
    · trivial
    · exact noticeLaw_putChannel_same hs rfl

theorem noticesLawful_armAnswer (hs : s.NoticeLaw) : (armAnswer params s).NoticesLawful := by
  refine yields_oneParam params fun c => ?_
  split
  · trivial
  · split
    · trivial
    · split
      · trivial
      · next hpending =>
        exact noticeLaw_armChannel ((tripPending_false_iff _ _).1 (Bool.not_eq_true _ ▸ hpending)) hs

theorem noticesLawful_pauseAnswer (hs : s.NoticeLaw) : (pauseAnswer params s).NoticesLawful := by
  refine yields_oneParam params fun c => ?_
  split
  · next hk => exact noticeLaw_putChannel hs fun _ _ => hs.pending _ (couldTrip_of_supervising hk)
  · trivial

theorem noticesLawful_resumeAnswer (hs : s.NoticeLaw) : (resumeAnswer params s).NoticesLawful := by
  refine yields_oneParam params fun c => ?_
  split
  · next hpaused => exact noticeLaw_seek hs (hs.pending (.channel c) ⟨by rw [hpaused]; nofun, by rw [hpaused]; nofun⟩)
  · trivial

theorem noticesLawful_injectAnswer (hs : s.NoticeLaw) : (injectAnswer params s).NoticesLawful := by
  refine yields_oneParam params fun c => ?_
  split
  · next hk => exact noticeLaw_of_supervises (supervises_inject hk) hs
  · trivial

theorem noticesLawful_rearmAnswer (hs : s.NoticeLaw) : (rearmAnswer params s).NoticesLawful := by
  refine yields_oneParam params fun src => ?_
  split
  · trivial
  · split
    · trivial
    · next hpending =>
      have hrearm := noticeLaw_rearm ((tripPending_false_iff _ src).1 (Bool.not_eq_true _ ▸ hpending)) hs
      cases src with
      | channel c => exact hrearm
      | link => exact hrearm

theorem noticesLawful_clearObservedAnswer (hs : s.NoticeLaw) : (clearObservedAnswer params s).NoticesLawful := by
  refine yields_oneParam params fun c => ?_
  split
  · trivial
  · exact noticeLaw_putChannel_same hs rfl

theorem noticesLawful_readObservedAnswer (hs : s.NoticeLaw) : (readObservedAnswer params s).NoticesLawful := by
  refine yields_oneParam params fun c => ?_
  split
  · trivial
  · exact hs

/-! Requests of the notices, the reactions and the outputs -/

/-- FETCH removes notices from the front: none is added, and the numbers behind them stay (R112, R114). -/
theorem noticesLawful_fetchAnswer (hs : s.NoticeLaw) : (fetchAnswer params s).NoticesLawful :=
  yields_oneParam params fun n => ⟨queueLawful_fetch n 0 hs.queue, fun src hcould =>
    Nat.le_zero.1 ((List.drop_sublist n _).countP_le.trans (hs.pending src hcould).le)⟩

theorem noticesLawful_setAttentionAnswer (hs : s.NoticeLaw) : (setAttentionAnswer params s).NoticesLawful :=
  yields_oneParam params fun _ => noticeLaw_congr hs rfl rfl (fun _ => rfl) (sameTrip_refl _)

theorem noticesLawful_setReactionAnswer (hs : s.NoticeLaw) : (setReactionAnswer params s).NoticesLawful := by
  unfold setReactionAnswer
  split
  · split
    · refine yields_whenRunning ?_
      split
      · trivial
      · split
        · trivial
        · exact noticeLaw_of_eq hs rfl rfl rfl
    · trivial
  · trivial

theorem noticesLawful_setOutputAnswer (hs : s.NoticeLaw) : (setOutputAnswer params s).NoticesLawful := by
  unfold setOutputAnswer
  split
  · split
    · exact yields_whenRunning (noticeLaw_of_eq hs rfl rfl rfl)
    · trivial
  · trivial

/-! Requests of the patterns, the lines, the link and the store -/

theorem noticesLawful_definePatternAnswer (hs : s.NoticeLaw) : (definePatternAnswer params s).NoticesLawful := by
  obtain ⟨status, he⟩ | ⟨data, id, p, he⟩ := definePatternAnswer_cases params s
  · rw [he]; trivial
  · have hrest := definePattern_rest s id p
    have hlink : (s.definePattern id p).link = s.link := by rw [hrest]
    rw [he]
    exact noticeLaw_congr hs (by rw [hrest]) (by rw [hrest]) (state_definePattern s id p)
      (by rw [hlink]; exact sameTrip_refl _)

theorem noticesLawful_deletePatternAnswer (hs : s.NoticeLaw) : (deletePatternAnswer params s).NoticesLawful := by
  refine yields_oneParam params fun id => ?_
  split
  · trivial
  · split
    · trivial
    · exact noticeLaw_of_eq hs rfl rfl rfl

theorem noticesLawful_readPatternAnswer (hs : s.NoticeLaw) : (readPatternAnswer params s).NoticesLawful := by
  refine yields_oneParam params fun id => ?_
  split
  · trivial
  · exact hs

theorem noticesLawful_setLineAnswer (hs : s.NoticeLaw) : (setLineAnswer params s).NoticesLawful := by
  unfold setLineAnswer
  split
  · split
    · split
      · exact yields_whenRunning (noticeLaw_of_supervises (supervises_setFilter s _ _ _) hs)
      · trivial
    · trivial
  · trivial

theorem noticesLawful_setLinkAnswer (hs : s.NoticeLaw) : (setLinkAnswer params s).NoticesLawful := by
  unfold setLinkAnswer
  split
  · split
    · exact yields_whenRunning (noticeLaw_withLink hs (sameTrip_setTimeout _ _ _))
    · trivial
  · trivial

theorem noticesLawful_savePlanAnswer (hs : s.NoticeLaw) : (savePlanAnswer params s).NoticesLawful := by
  refine yields_noParams params (yields_whenRunning ?_)
  split
  · trivial
  · split
    · trivial
    · exact noticeLaw_of_eq hs rfl rfl rfl

theorem noticesLawful_erasePlanAnswer (hs : s.NoticeLaw) : (erasePlanAnswer params s).NoticesLawful := by
  refine yields_noParams params (yields_whenRunning ?_)
  split
  · trivial
  · exact noticeLaw_of_eq hs rfl rfl rfl

/-! Events -/

theorem noticeLaw_frameEndExpiry {o : Fin 6} (hs : s.NoticeLaw) (h : execFrameEndExpiry o s = .next t) : t.NoticeLaw := by
  obtain rfl := Host.Outcome.next.inj h
  split
  · split
    · exact noticeLaw_of_eq hs rfl rfl rfl
    · exact hs
  · exact hs

/-- The end of a save offers a STORE notice (R126). -/
theorem noticeLaw_saveCompletion {matched : Bool} (hs : s.NoticeLaw) (h : execSaveCompletion matched s = .next t) :
    t.NoticeLaw := by
  obtain rfl := Host.Outcome.next.inj h
  split
  · split
    · exact hs
    · exact noticeLaw_offer (noticeLaw_of_eq hs rfl rfl rfl) rfl
  · exact hs

theorem noticeLaw_secondBankInvalidation (hs : s.NoticeLaw) (h : execSecondBankInvalidation s = .next t) :
    t.NoticeLaw := by
  obtain rfl := Host.Outcome.next.inj h
  split
  · split
    · exact hs
    · exact noticeLaw_of_eq hs rfl rfl rfl
  · exact hs

/-- The end of an erase offers a STORE notice (R128). -/
theorem noticeLaw_eraseCompletion (hs : s.NoticeLaw) (h : execEraseCompletion s = .next t) : t.NoticeLaw := by
  obtain rfl := Host.Outcome.next.inj h
  split
  · split
    · exact hs
    · exact noticeLaw_offer (noticeLaw_of_eq hs rfl rfl rfl) rfl
  · exact hs

theorem noticeLaw_byteArrival {b : Byte} (hs : s.NoticeLaw) (h : execByteArrival b s = .next t) : t.NoticeLaw := by
  obtain rfl := Host.Outcome.next.inj h
  split
  · exact hs
  · exact noticeLaw_withLink hs (sameTrip_receive s.link s.time b)

theorem noticeLaw_framingFault (hs : s.NoticeLaw) (h : execFramingFault s = .next t) : t.NoticeLaw := by
  obtain rfl := Host.Outcome.next.inj h
  split
  · exact hs
  · split
    · exact hs
    · exact noticeLaw_withLink hs (sameTrip_refl _)

theorem noticeLaw_gapExpiry (hs : s.NoticeLaw) (h : execGapExpiry s = .next t) : t.NoticeLaw := by
  obtain rfl := Host.Outcome.next.inj h
  split
  · split
    · exact noticeLaw_withLink hs (sameTrip_refl _)
    · exact hs
  · exact hs

/-- LINK trips from WATCHING (R148). -/
theorem noticeLaw_silenceExpiry (hs : s.NoticeLaw) (h : execSilenceExpiry s = .next t) : t.NoticeLaw := by
  obtain rfl := Host.Outcome.next.inj h
  split
  · next hwatching =>
    split
    · exact noticeLaw_tripLink (by rw [couldTrip_link, hwatching]; nofun) hs
    · exact hs
  · exact hs

/-! Reset, the load and time -/

/-- With no TRIP notice in the list any source could trip. -/
theorem noticeLaw_of_no_trips (hqueue : s.queue.Lawful) (hnone : ∀ src, tripCount s.queue.notices src = 0) : s.NoticeLaw :=
  ⟨hqueue, fun src _ => hnone src⟩

theorem noticeLaw_of_cleared {pin : Fin 8 → Level} (h : t.Cleared pin) : t.NoticeLaw := by
  have hempty : t.queue.notices = [] := by
    obtain ⟨-, -, -, -, -, -, -, -, hqueue, -⟩ := h
    rw [hqueue]
  exact noticeLaw_of_no_trips (queueLawful_empty hempty) fun src => by rw [hempty]; rfl

theorem noticeLaw_resetEnd (hs : s.NoticeLaw) (h : execResetEnd s = .next t) : t.NoticeLaw := by
  obtain rfl := Host.Outcome.next.inj h
  split
  · exact noticeLaw_of_eq hs rfl rfl rfl
  · exact hs

/-- The end of an accepted RESET's reply begins and ends a reset; any other reply leaves the next one to be sent (R131, R144). -/
theorem noticeLaw_replySent (hs : s.NoticeLaw) (h : execReplySent s = .next t) : t.NoticeLaw := by
  obtain rfl := Host.Outcome.next.inj h
  split
  · split
    · split
      · exact noticeLaw_of_eq (noticeLaw_of_cleared (cleared_beginReset s .resetRequest)) rfl rfl rfl
      · exact noticeLaw_withLink hs (sameTrip_refl _)
    · exact hs
  · exact hs

/-- In STARTING the list is empty, so RUNNING begins with the STARTED notice alone, and no TRIP notice (R120, R121, R136). -/
theorem noticeLaw_planLoadEnd (hl : s.Lawful) (h : execPlanLoadEnd s = .next t) : t.NoticeLaw := by
  obtain rfl := Host.Outcome.next.inj h
  split
  · next hd =>
    obtain ⟨hempty, -⟩ := ((dormant_of_lawful hl).asleep (by rw [hd]; nofun)).queue
    have hqueue : (s.loadPlan s.store.selectPlan.1).enterBlocks.queue.Lawful := queueLawful_empty hempty
    simp only [State.enterRunning]
    rw [bootArm_rest]
    refine noticeLaw_of_no_trips (queueLawful_offer rfl hqueue) fun src => (tripCount_offer rfl src).trans ?_
    rw [show (s.loadPlan s.store.selectPlan.1).enterBlocks.queue.notices = [] from hempty]
    rfl
  · exact noticeLaw_of_lawful hl

theorem noticeLaw_tick (hs : s.NoticeLaw) : s.tick.NoticeLaw := by
  by_cases hd : s.device = .reset
  · rw [tick_of_reset hd]; exact hs
  · have hchannel := channel_tick hd
    rw [tick_of_not_reset hd] at hchannel ⊢
    exact noticeLaw_congr hs rfl rfl (fun c => by rw [hchannel c]) (sameTrip_refl _)

/-- The load writes the attention mask and the channel configurations, and no channel state (R135). -/
theorem noticeLaw_loadPlan (img : Image) (hs : s.NoticeLaw) : (s.loadPlan img).NoticeLaw :=
  noticeLaw_congr hs rfl rfl (fun c => by rw [channels_loadPlan]; rfl) (sameTrip_refl _)

/-- Nothing is due: a microsecond, or the plan is written in STARTING (R135). -/
theorem noticeLaw_pass (hs : s.NoticeLaw) : s.pass.NoticeLaw := by
  have hdrawn : s.drawn.NoticeLaw := noticeLaw_of_eq hs rfl rfl rfl
  by_cases hplan : s.device = .starting ∧ s.planWritten = false
  · obtain ⟨hd, hp⟩ := hplan
    rw [pass_of_unwritten hd hp]
    split
    · exact noticeLaw_loadPlan _ hdrawn
    · exact noticeLaw_tick hdrawn
  · rw [pass_of_written hplan]
    exact noticeLaw_tick hs

/-! Commands and steps -/

theorem noticeLaw_of_request {f : Frame} {carryOut : State → Answer} (hs : s.NoticeLaw)
    (h : Host.Outcome.next (s.request f carryOut) = (.next t : Host.Outcome State Fault Refusal))
    (hk : ∀ u : State, u.NoticeLaw → (carryOut u).NoticesLawful) : t.NoticeLaw := by
  obtain rfl := Host.Outcome.next.inj h
  exact request_keeps (fun _ _ => noticeLaw_withLink) f hs hk

theorem noticeLaw_unknownRequestCode {tag code : Byte} {params : List Byte} (hs : s.NoticeLaw)
    (h : execUnknownRequestCode tag code params s = .next t) : t.NoticeLaw := by
  obtain rfl := Host.Outcome.next.inj h
  split
  · exact hs
  · exact request_keeps (fun _ _ => noticeLaw_withLink) _ hs fun _ _ => trivial

/-- Every command keeps the laws of the notices. -/
theorem noticeLaw_exec (i : Instr) (hl : s.Lawful) (h : exec i s = .next t) : t.NoticeLaw := by
  have hs := noticeLaw_of_lawful hl
  cases i with
  | arm tag params => exact noticeLaw_of_request hs h fun _ => noticesLawful_armAnswer params
  | clearChannel tag params => exact noticeLaw_of_request hs h fun _ => noticesLawful_clearChannelAnswer params
  | clearObserved tag params => exact noticeLaw_of_request hs h fun _ => noticesLawful_clearObservedAnswer params
  | configureChannel tag params => exact noticeLaw_of_request hs h fun _ => noticesLawful_configureChannelAnswer params
  | definePattern tag params => exact noticeLaw_of_request hs h fun _ => noticesLawful_definePatternAnswer params
  | deletePattern tag params => exact noticeLaw_of_request hs h fun _ => noticesLawful_deletePatternAnswer params
  | disarm tag params =>
    exact noticeLaw_of_request hs h fun _ hu => yields_oneParam params fun c => noticeLaw_disarm c hu
  | erasePlan tag params => exact noticeLaw_of_request hs h fun _ => noticesLawful_erasePlanAnswer params
  | fetch tag params => exact noticeLaw_of_request hs h fun _ => noticesLawful_fetchAnswer params
  | identify tag params => exact noticeLaw_of_request hs h fun _ hu => yields_noParams params hu
  | inject tag params => exact noticeLaw_of_request hs h fun _ => noticesLawful_injectAnswer params
  | pause tag params => exact noticeLaw_of_request hs h fun _ => noticesLawful_pauseAnswer params
  | readChannel tag params => exact noticeLaw_of_request hs h fun _ hu => yields_oneParam params fun _ => hu
  | readLine tag params => exact noticeLaw_of_request hs h fun _ hu => yields_oneParam params fun _ => hu
  | readObserved tag params => exact noticeLaw_of_request hs h fun _ => noticesLawful_readObservedAnswer params
  | readOutput tag params => exact noticeLaw_of_request hs h fun _ hu => yields_oneParam params fun _ => hu
  | readPattern tag params => exact noticeLaw_of_request hs h fun _ => noticesLawful_readPatternAnswer params
  | readReaction tag params => exact noticeLaw_of_request hs h fun _ hu => yields_oneParam params fun _ => hu
  | rearm tag params => exact noticeLaw_of_request hs h fun _ => noticesLawful_rearmAnswer params
  | resetRequest tag params =>
    exact noticeLaw_of_request hs h fun _ hu => yields_noParams params (yields_whenRunning hu)
  | resume tag params => exact noticeLaw_of_request hs h fun _ => noticesLawful_resumeAnswer params
  | savePlan tag params => exact noticeLaw_of_request hs h fun _ => noticesLawful_savePlanAnswer params
  | setAttention tag params => exact noticeLaw_of_request hs h fun _ => noticesLawful_setAttentionAnswer params
  | setLine tag params => exact noticeLaw_of_request hs h fun _ => noticesLawful_setLineAnswer params
  | setLink tag params => exact noticeLaw_of_request hs h fun _ => noticesLawful_setLinkAnswer params
  | setOutput tag params => exact noticeLaw_of_request hs h fun _ => noticesLawful_setOutputAnswer params
  | setReaction tag params => exact noticeLaw_of_request hs h fun _ => noticesLawful_setReactionAnswer params
  | status tag params => exact noticeLaw_of_request hs h fun _ hu => yields_noParams params hu
  | rawChange l level => exact noticeLaw_of_supervises (supervises_rawChange h) hs
  | qualificationExpiry l => exact noticeLaw_of_supervises (supervises_qualificationExpiry h) hs
  | stepDeadline c =>
    obtain rfl := Host.Outcome.next.inj h
    exact noticeLaw_of_supervises (supervises_deliverDeadline .refl) hs
  | acquireExpiry c => exact noticeLaw_of_supervises (supervises_acquireExpiry h) hs
  | frameEndExpiry o => exact noticeLaw_frameEndExpiry hs h
  | saveCompletion matched => exact noticeLaw_saveCompletion hs h
  | secondBankInvalidation => exact noticeLaw_secondBankInvalidation hs h
  | eraseCompletion => exact noticeLaw_eraseCompletion hs h
  | powerOn =>
    obtain rfl := Host.Outcome.next.inj h
    exact noticeLaw_of_cleared (cleared_beginReset s _)
  | resetLine =>
    obtain rfl := Host.Outcome.next.inj h
    exact noticeLaw_of_cleared (cleared_beginReset _ _)
  | resetEnd => exact noticeLaw_resetEnd hs h
  | planLoadEnd => exact noticeLaw_planLoadEnd hl h
  | byteArrival b => exact noticeLaw_byteArrival hs h
  | framingFault => exact noticeLaw_framingFault hs h
  | gapExpiry => exact noticeLaw_gapExpiry hs h
  | replySent => exact noticeLaw_replySent hs h
  | silenceExpiry => exact noticeLaw_silenceExpiry hs h
  | unknownRequestCode tag code params => exact noticeLaw_unknownRequestCode hs h

/-- Every step keeps the laws of the notices. -/
theorem noticeLaw_step (hl : s.Lawful) (h : step s = .next t) : t.NoticeLaw := by
  obtain ⟨i, pending, draws, h⟩ | rfl := step_cases h
  · exact noticeLaw_exec i (lawful_with_pending_draws hl pending draws) h
  · exact noticeLaw_pass (noticeLaw_of_lawful hl)

/-- Settles O12, from the laws of the notices that every step keeps. -/
theorem queueLawsKept : Obligations.QueueLawsKept := by
  refine ⟨fun s t hl h => ?_, fun s t hl h => (noticeLaw_step hl h).queue.sequence⟩
  have hnotices := noticeLaw_step hl h
  exact ⟨admissionLaw_of_lawful hnotices.queue, pendingLaw_of_noticeLaw hnotices⟩

end Sys2Proof.Machine

/-! FETCH and SET_ATTENTION, as the executor carries them out in RUNNING, and ATTN (R114, R118, R119, R175). -/

namespace Sys2Proof.Machine

variable {s : State}

theorem fetchCountOf_byte {n : Nat} (hmin : 1 ≤ n) (hmax : n ≤ 8) : fetchCountOf (byte n) = some n := by
  have hn : (byte n).toNat = n := by rw [byte_toNat]; omega
  unfold fetchCountOf
  rw [hn, if_pos ⟨hmin, hmax⟩]

theorem fetchAnswer_of_running {n : Nat} (hmin : 1 ≤ n) (hmax : n ≤ 8) (hd : s.device = .running) :
    fetchAnswer [byte n] s =
      .ok ([byte (min n s.queue.notices.length), byte (s.queue.notices.length - n)] ++ be16 s.queue.dropped.toNat ++
        (s.queue.notices.take n).flatMap Notice.bytes) (s.fetch n) := by
  have hanswer := oneParam_value hd (fetchCountOf_byte hmin hmax) fun n =>
    .ok ([byte (s.queue.notices.take n).length, byte (s.queue.notices.drop n).length] ++ count16 s.queue.dropped ++
      (s.queue.notices.take n).flatMap Notice.bytes) (s.fetch n)
  rw [List.length_take, List.length_drop] at hanswer
  exact hanswer

/-- Settles O26: the executor's answer, and its effect on the queue alone. -/
theorem fetchRemovesTheOldestNotices : Obligations.FetchRemovesTheOldestNotices := by
  rintro s tag n rest hmin hmax ⟨htakes, hd⟩
  exact congrArg _ (request_accepted htakes (fetchAnswer_of_running (s := s.taken rest) hmin hmax hd) rfl rfl)

/-- A notice asserts ATTN by its kind, always or as the mask says (R119). -/
theorem asserts_iff (mask : BitVec 3) (n : Notice) :
    n.asserts mask = true ↔
      n.isTrip = true ∨
        (∃ cause outcome generation armed, n.body = .started cause outcome generation armed) ∨
        ((∃ kind step measured strikes, n.body = .deviation kind step measured strikes) ∧ mask.getLsbD 0 = true) ∨
        ((∃ step measured cycles, n.body = .mark step measured cycles) ∧ mask.getLsbD 1 = true) ∨
        ((∃ operation done generation, n.body = .store operation done generation) ∧ mask.getLsbD 2 = true) := by
  unfold Notice.asserts Notice.isTrip
  cases n.body <;> simp

theorem attn_iff (s : State) :
    s.attn = true ↔ s.device = .running ∧ ∃ n ∈ s.queue.notices, n.asserts s.queue.mask = true := by
  unfold State.attn
  rw [Bool.and_eq_true_iff, decide_eq_true_iff, List.any_eq_true]

theorem setAttentionAnswer_of_running (mask : BitVec 3) (hd : s.device = .running) :
    setAttentionAnswer [byte mask.toNat] s =
      .ok [byte mask.toNat, if ({ s with queue := { s.queue with mask } } : State).attn then 1 else 0]
        { s with queue := { s.queue with mask } } :=
  oneParam_value hd (maskOf_byte 3 mask (by decide)) _

/-- Settles O27: ATTN kind by kind, and the executor's answer with the new mask. -/
theorem attnFollowsTheListAndTheMaskIsReplaced : Obligations.AttnFollowsTheListAndTheMaskIsReplaced := by
  refine ⟨fun s => ?_, ?_⟩
  · simp only [attn_iff, asserts_iff]
  · rintro s tag mask rest ⟨htakes, hd⟩
    exact congrArg _ (request_accepted htakes (setAttentionAnswer_of_running (s := s.taken rest) mask hd) rfl rfl)

end Sys2Proof.Machine

/-! The newest, the other and the second bank, from the generations of the valid banks (R124, R127). -/

namespace Sys2Proof.Machine

variable {st : Store}

theorem generations_of_newest_none (h : st.newest = none) : st.bankA.generation = none ∧ st.bankB.generation = none := by
  unfold Store.newest at h
  split at h
  · next ha hb => exact ⟨ha, hb⟩
  · cases h
  · cases h
  · split at h
    · cases h
    · cases h

theorem selection_of_newest_none (h : st.newest = none) :
    st.newestGeneration = none ∧ st.other = .a ∧ st.second = .b := by
  unfold Store.newestGeneration Store.other Store.second
  rw [h]
  exact ⟨rfl, rfl, rfl⟩

theorem selection_of_newest_a (h : st.newest = some .a) :
    st.newestGeneration = st.bankA.generation ∧ st.other = .b ∧ st.second = .a := by
  unfold Store.newestGeneration Store.other Store.second
  rw [h]
  exact ⟨rfl, rfl, rfl⟩

theorem selection_of_newest_b (h : st.newest = some .b) :
    st.newestGeneration = st.bankB.generation ∧ st.other = .a ∧ st.second = .b := by
  unfold Store.newestGeneration Store.other Store.second
  rw [h]
  exact ⟨rfl, rfl, rfl⟩

/-- Two valid banks: B is the newest only with the larger generation (R124). -/
theorem newest_of_generations {g h : Count32} (ha : st.bankA.generation = some g) (hb : st.bankB.generation = some h) :
    st.newest = if g.toNat < h.toNat then some .b else some .a := by
  unfold Store.newest
  rw [ha, hb]

/-- Settles O30: the newest bank in each case of the two generations. -/
theorem newestAndOtherBank : Obligations.NewestAndOtherBank := by
  refine fun st => ⟨fun ha hb => ?_, fun g ha hb => ?_, fun g ha hb => ?_, fun g h ha hb => ⟨fun hle => ?_, fun hlt => ?_⟩⟩
  · exact selection_of_newest_none (by unfold Store.newest; rw [ha, hb])
  · rw [← ha]
    exact selection_of_newest_a (by unfold Store.newest; rw [ha, hb])
  · rw [← hb]
    exact selection_of_newest_b (by unfold Store.newest; rw [ha, hb])
  · rw [← ha]
    exact selection_of_newest_a ((newest_of_generations ha hb).trans (if_neg (Nat.not_lt.2 hle)))
  · rw [← hb]
    exact selection_of_newest_b ((newest_of_generations ha hb).trans (if_pos hlt))

/-- The second bank of an erase, which a save does not write, carries the newest generation, if any bank is valid (R124). -/
theorem generation_second (st : Store) : (st.bank st.second).generation = st.newestGeneration := by
  cases hn : st.newest with
  | none =>
    obtain ⟨hg, -, hs⟩ := selection_of_newest_none hn
    obtain ⟨-, hb⟩ := generations_of_newest_none hn
    rw [hg, hs]
    exact hb
  | some j =>
    cases j with
    | a =>
      obtain ⟨hg, -, hs⟩ := selection_of_newest_a hn
      rw [hg, hs]
      rfl
    | b =>
      obtain ⟨hg, -, hs⟩ := selection_of_newest_b hn
      rw [hg, hs]
      rfl

/-- There are two banks. -/
theorem bankId_eq_of_ne {j k l : BankId} (hj : j ≠ l) (hk : k ≠ l) : j = k := by
  cases j <;> cases k <;> cases l <;> simp at hj hk ⊢

theorem eq_second_of_ne_other {j : BankId} (h : j ≠ st.other) : j = st.second :=
  bankId_eq_of_ne h (other_ne_second st).symm

end Sys2Proof.Machine

/-! What a command can do to the Plan Store: the moves of a save, of an erase and of a reset, and the law that they keep (R122 to
R130, R132). -/

namespace Sys2Proof.Machine

variable {s t : State} {i : Instr}

/-! The law of the banks -/

/-- A bank is valid exactly when it holds content whose check value matches (R122). -/
def Bank.Lawful (b : Bank) : Prop := b.valid = true ↔ ∃ c : BankContent, b.content = some c ∧ c.checkMatches = true

theorem bankLawful_empty : Bank.empty.Lawful := ⟨nofun, fun ⟨_, hc, _⟩ => nomatch hc⟩

theorem bankLawful_saved (image : Image) (generation : Count32) :
    Bank.Lawful { content := some { image, generation, checkMatches := true }, valid := true } :=
  ⟨fun _ => ⟨_, rfl, rfl⟩, fun _ => rfl⟩

/-- What an invalid bank holds has no matching check value (R122). -/
theorem mismatch_of_invalid {b : Bank} (h : b.Lawful) (hv : b.valid = false) {c : BankContent} (hc : b.content = some c) :
    c.checkMatches = false := by
  rw [← Bool.not_eq_true]
  intro hm
  rw [h.2 ⟨c, hc, hm⟩] at hv
  cases hv

/-- The start of STARTING finds the validity that the store kept (R132). -/
theorem decide_of_lawful {b : Bank} (h : b.Lawful) : b.decide = b := by
  have hv : (b.content.map (·.checkMatches)).getD false = b.valid := by
    rw [Bool.eq_iff_iff, show b.valid = true ↔ _ from h]
    cases b.content <;> simp
  rw [bank_decide_eq, hv]

/-- The banks of an operation in flight are as R125, R127 and R130 leave them. -/
def Store.OperationLaw (st : Store) : Prop :=
  match st.op with
  | .idle => True
  | .saving target g _ _ =>
    (st.bank target).valid = false ∧
      ∀ j, j ≠ target → match (st.bank j).generation with
        | some h => g = h + 1 ∧ h ≠ 4294967295
        | none => g = 1
  | .erasing (some i) _ => ∀ j, j ≠ i → (st.bank j).valid = false
  | .erasing none _ => st.bankA.valid = false ∧ st.bankB.valid = false

/-- The law of the Plan Store, as a law of its record alone. -/
structure Store.Lawful (st : Store) : Prop where
  banks : ∀ j : BankId, (st.bank j).Lawful
  operation : st.OperationLaw

theorem storeLaw_iff : s.StoreLaw ↔ s.store.Lawful := by
  suffices h : s.StoreLaw ↔ (∀ j : BankId, (s.store.bank j).Lawful) ∧ s.store.OperationLaw from
    h.trans ⟨fun ⟨hbanks, hop⟩ => ⟨hbanks, hop⟩, fun ⟨hbanks, hop⟩ => ⟨hbanks, hop⟩⟩
  unfold State.StoreLaw Store.OperationLaw Bank.Lawful
  cases s.store.op with
  | idle => exact Iff.rfl
  | saving target g img since => exact Iff.rfl
  | erasing remaining since => cases remaining <;> exact Iff.rfl

/-! The moves -/

variable {st st' : Store}

/-- What command `i` can make of the Plan Store `st`: nothing; an operation abandoned by a reset; a save or an erase begun; a save
ended; the second invalidation of an erase; an erase ended (R125 to R130). -/
inductive Store.Moves (st : Store) : Instr → Store → Prop
  | keep {i : Instr} : st.Moves i st
  | abandoned {i : Instr} : st.Moves i { st with op := .idle }
  | saveBegun {tag : Byte} {params : List Byte} (image : Image) (now : Time) (idle : st.op = .idle)
      (room : st.newestGeneration ≠ some 4294967295) :
      st.Moves (.savePlan tag params)
        { st.invalidate st.other with op := .saving st.other st.nextGeneration image now }
  | eraseBegun {tag : Byte} {params : List Byte} (now : Time) (idle : st.op = .idle) :
      st.Moves (.erasePlan tag params) { st.invalidate st.other with op := .erasing (some st.second) now }
  | saved {target : BankId} {generation : Count32} {image : Image} {since : Time} (matched : Bool)
      (saving : st.op = .saving target generation image since) :
      st.Moves (.saveCompletion matched)
        { st.putBank target
            (if matched then { content := some { image, generation, checkMatches := true }, valid := true } else Bank.empty)
          with op := .idle }
  | secondInvalidated {second : BankId} {since : Time} (erasing : st.op = .erasing (some second) since) :
      st.Moves .secondBankInvalidation { st.invalidate second with op := .erasing none since }
  | erased {remaining : Option BankId} {since : Time} (erasing : st.op = .erasing remaining since) :
      st.Moves .eraseCompletion { bankA := Bank.empty, bankB := Bank.empty, op := .idle }

theorem bank_withOp (st : Store) (op : StoreOp) (j : BankId) : ({ st with op } : Store).bank j = st.bank j := by
  cases j <;> rfl

theorem bank_empty (op : StoreOp) (j : BankId) :
    ({ bankA := Bank.empty, bankB := Bank.empty, op } : Store).bank j = Bank.empty := by
  cases j <;> rfl

theorem bankLawful_putBank {b : Bank} (target : BankId) (h : ∀ j, (st.bank j).Lawful) (hb : b.Lawful) (j : BankId) :
    ((st.putBank target b).bank j).Lawful := by
  by_cases hj : j = target
  · rw [hj, bank_putBank_same]; exact hb
  · rw [bank_putBank_other st target j b hj]; exact h j

/-- Every move leaves each bank valid exactly when it holds content whose check value matches (R122). -/
theorem bankLawful_of_moves (h : st.Moves i st') (hs : ∀ j, (st.bank j).Lawful) (j : BankId) : (st'.bank j).Lawful := by
  cases h with
  | keep => exact hs j
  | abandoned => rw [bank_withOp]; exact hs j
  | saveBegun image now => rw [bank_withOp]; exact bankLawful_putBank _ hs bankLawful_empty j
  | eraseBegun now => rw [bank_withOp]; exact bankLawful_putBank _ hs bankLawful_empty j
  | saved matched saving =>
    rw [bank_withOp]
    refine bankLawful_putBank _ hs ?_ j
    cases matched
    · exact bankLawful_empty
    · exact bankLawful_saved _ _
  | secondInvalidated => rw [bank_withOp]; exact bankLawful_putBank _ hs bankLawful_empty j
  | erased => rw [bank_empty]; exact bankLawful_empty

/-- A save that begins leaves its target invalid, and writes the generation after that of the other bank (R124, R125). -/
theorem operationLaw_saveBegun (image : Image) (now : Time) (room : st.newestGeneration ≠ some 4294967295) :
    Store.OperationLaw
      { st.invalidate st.other with op := .saving st.other st.nextGeneration image now } := by
  refine ⟨by rw [bank_withOp, valid_invalidate], fun j hj => ?_⟩
  rw [bank_withOp, Store.invalidate, bank_putBank_other st _ j _ hj, eq_second_of_ne_other hj, generation_second]
  unfold Store.nextGeneration
  cases hg : st.newestGeneration with
  | none => rfl
  | some g => exact ⟨rfl, fun e => room (by rw [hg, e])⟩

/-- An erase that begins leaves only its second bank to be invalidated (R127). -/
theorem operationLaw_eraseBegun (now : Time) :
    Store.OperationLaw { st.invalidate st.other with op := .erasing (some st.second) now } := by
  intro j hj
  have hother : j = st.other := by_contra fun hne => hj (eq_second_of_ne_other hne)
  rw [bank_withOp, hother, valid_invalidate]

/-- After the second invalidation both banks are invalid (R128). -/
theorem operationLaw_secondInvalidated {second : BankId} (since : Time) (h : ∀ j, j ≠ second → (st.bank j).valid = false) :
    Store.OperationLaw { st.invalidate second with op := .erasing none since } := by
  have hinvalid (j : BankId) : ((st.invalidate second).bank j).valid = false := by
    by_cases hj : j = second
    · rw [hj, valid_invalidate]
    · rw [Store.invalidate, bank_putBank_other st _ j _ hj]; exact h j hj
  exact ⟨hinvalid .a, hinvalid .b⟩

theorem operationLaw_erasing {second : BankId} {since : Time} (hs : st.OperationLaw)
    (erasing : st.op = .erasing (some second) since) : ∀ j, j ≠ second → (st.bank j).valid = false := by
  unfold Store.OperationLaw at hs
  rw [erasing] at hs
  exact hs

/-- Every move keeps the law of the Plan Store. -/
theorem lawful_of_moves (h : st.Moves i st') (hs : st.Lawful) : st'.Lawful := by
  refine ⟨bankLawful_of_moves h hs.banks, ?_⟩
  cases h with
  | keep => exact hs.operation
  | abandoned => trivial
  | saveBegun image now idle room => exact operationLaw_saveBegun image now room
  | eraseBegun now => exact operationLaw_eraseBegun now
  | saved => trivial
  | secondInvalidated erasing => exact operationLaw_secondInvalidated _ (operationLaw_erasing hs.operation erasing)
  | erased => trivial

/-! What the moves leave of a bank -/

/-- While a save is in flight only its target is written (R130). -/
theorem bank_of_moves_saving {target j : BankId} {g : Count32} {image : Image} {since : Time} (h : st.Moves i st')
    (saving : st.op = .saving target g image since) (hj : j ≠ target) : st'.bank j = st.bank j := by
  cases h with
  | keep => rfl
  | abandoned => exact bank_withOp st _ j
  | saveBegun _ _ idle => cases saving.symm.trans idle
  | eraseBegun _ idle => cases saving.symm.trans idle
  | saved _ saving' =>
    cases saving.symm.trans saving'
    rw [bank_withOp, bank_putBank_other st _ j _ hj]
  | secondInvalidated erasing => cases saving.symm.trans erasing
  | erased erasing => cases saving.symm.trans erasing

/-- The bank that an erase has still to invalidate stays as it is until then (R127, R130). -/
theorem bank_of_moves_erasing {second : BankId} {since : Time} (h : st.Moves i st')
    (erasing : st.op = .erasing (some second) since) (hsecond : i ≠ .secondBankInvalidation) (hend : i ≠ .eraseCompletion) :
    st'.bank second = st.bank second := by
  cases h with
  | keep => rfl
  | abandoned => exact bank_withOp st _ second
  | saveBegun _ _ idle => cases erasing.symm.trans idle
  | eraseBegun _ idle => cases erasing.symm.trans idle
  | saved _ saving => cases erasing.symm.trans saving
  | secondInvalidated => exact absurd rfl hsecond
  | erased => exact absurd rfl hend

/-- Only its own completion makes a save's target valid (R126, R130). -/
theorem invalid_target_of_moves {target : BankId} {g : Count32} {image : Image} {since : Time} (h : st.Moves i st')
    (hs : st.Lawful) (saving : st.op = .saving target g image since) (hend : ∀ matched : Bool, i ≠ .saveCompletion matched) :
    (st'.bank target).valid = false := by
  have hinvalid : (st.bank target).valid = false := by
    have hop := hs.operation
    unfold Store.OperationLaw at hop
    rw [saving] at hop
    obtain ⟨htarget, -⟩ := hop
    exact htarget
  cases h with
  | keep => exact hinvalid
  | abandoned => rw [bank_withOp]; exact hinvalid
  | saveBegun _ _ idle => cases saving.symm.trans idle
  | eraseBegun _ idle => cases saving.symm.trans idle
  | saved matched => exact absurd rfl (hend matched)
  | secondInvalidated erasing => cases saving.symm.trans erasing
  | erased erasing => cases saving.symm.trans erasing

/-- While an erase is in flight, every bank but the one still to be invalidated is invalid (R127, R128). -/
theorem invalid_of_erasing {remaining : Option BankId} {since : Time} {j : BankId} (hs : st.Lawful)
    (erasing : st.op = .erasing remaining since) (hj : remaining ≠ some j) : (st.bank j).valid = false := by
  have hop := hs.operation
  unfold Store.OperationLaw at hop
  rw [erasing] at hop
  cases remaining with
  | some second => exact hop j fun e => hj (by rw [e])
  | none =>
    obtain ⟨ha, hb⟩ := hop
    cases j
    · exact ha
    · exact hb

/-- No move revives a bank that an erase has invalidated (R130). -/
theorem invalid_of_moves_erasing {remaining : Option BankId} {since : Time} {j : BankId} (h : st.Moves i st') (hs : st.Lawful)
    (erasing : st.op = .erasing remaining since) (hj : remaining ≠ some j) : (st'.bank j).valid = false := by
  have hinvalid := invalid_of_erasing hs erasing hj
  cases h with
  | keep => exact hinvalid
  | abandoned => rw [bank_withOp]; exact hinvalid
  | saveBegun _ _ idle => cases erasing.symm.trans idle
  | eraseBegun _ idle => cases erasing.symm.trans idle
  | saved _ saving => cases erasing.symm.trans saving
  | secondInvalidated erasing' =>
    cases erasing.symm.trans erasing'
    rw [bank_withOp, Store.invalidate, bank_putBank_other st _ j _ fun e => hj (by rw [e])]
    exact hinvalid
  | erased => rw [bank_empty]; rfl

end Sys2Proof.Machine

/-! Every command moves the Plan Store, and so every step keeps its law; but for the commands of the store and a reset, a command
leaves it as it is (R122 to R130). -/

namespace Sys2Proof.Machine

variable {s t u : State} {c : Fin 8} {i : Instr}

/-! What leaves the store -/

theorem store_of_supervises (h : s.Supervises t) : t.store = s.store := by
  induction h with
  | refl => rfl
  | line l x _ ih => exact ih
  | record hx _ ih => exact ih
  | deviation dev hk _ ih => exact (turn_handleDeviation _ _ dev).store.trans ih
  | mark now c k d cycles _ ih => exact ih
  | choose n _ ih => exact ih

theorem store_disarm (s : State) (c : Fin 8) : (s.disarm c).store = s.store := by
  unfold State.disarm
  split
  · rfl
  · simp only
    split
    · rfl
    · rfl

/-- The passing of a microsecond, or the writing of the plan, leaves the store (R135). -/
theorem store_pass (s : State) : s.pass.store = s.store := by
  have htick (u : State) : u.tick.store = u.store := by
    unfold State.tick
    split
    · rfl
    · rfl
  by_cases hplan : s.device = .starting ∧ s.planWritten = false
  · obtain ⟨hd, hp⟩ := hplan
    rw [pass_of_unwritten hd hp]
    split
    · rfl
    · exact htick s.drawn
  · rw [pass_of_written hplan]
    exact htick s

/-! Requests -/

/-- The effect of an answer leaves the Plan Store as it is in `s`. -/
abbrev Answer.LeavesStore (a : Answer) (s : State) : Prop := a.Yields fun t => t.store = s.store

variable (s) (params : List Byte)

theorem leavesStore_configureChannelAnswer : (configureChannelAnswer params s).LeavesStore s := by
  unfold configureChannelAnswer
  split
  · split
    · refine yields_whenRunning ?_
      split
      · trivial
      · split
        · trivial
        · rfl
    · trivial
  · trivial

theorem leavesStore_clearChannelAnswer : (clearChannelAnswer params s).LeavesStore s := by
  refine yields_oneParam params fun c => ?_
  split
  · trivial
  · split
    · trivial
    · rfl

theorem leavesStore_armAnswer : (armAnswer params s).LeavesStore s := by
  refine yields_oneParam params fun c => ?_
  split
  · trivial
  · split
    · trivial
    · split
      · trivial
      · rfl

theorem leavesStore_pauseAnswer : (pauseAnswer params s).LeavesStore s := by
  refine yields_oneParam params fun c => ?_
  split
  · rfl
  · trivial

theorem leavesStore_resumeAnswer : (resumeAnswer params s).LeavesStore s := by
  refine yields_oneParam params fun c => ?_
  split
  · rfl
  · trivial

theorem leavesStore_injectAnswer : (injectAnswer params s).LeavesStore s := by
  refine yields_oneParam params fun c => ?_
  split
  · next hk => exact store_of_supervises (supervises_inject hk)
  · trivial

theorem leavesStore_rearmAnswer : (rearmAnswer params s).LeavesStore s := by
  refine yields_oneParam params fun src => ?_
  split
  · trivial
  · split
    · trivial
    · cases src with
      | channel c => rfl
      | link => rfl

theorem leavesStore_clearObservedAnswer : (clearObservedAnswer params s).LeavesStore s := by
  refine yields_oneParam params fun c => ?_
  split
  · trivial
  · rfl

theorem leavesStore_readObservedAnswer : (readObservedAnswer params s).LeavesStore s := by
  refine yields_oneParam params fun c => ?_
  split
  · trivial
  · rfl

theorem leavesStore_setReactionAnswer : (setReactionAnswer params s).LeavesStore s := by
  unfold setReactionAnswer
  split
  · split
    · refine yields_whenRunning ?_
      split
      · trivial
      · split
        · trivial
        · rfl
    · trivial
  · trivial

theorem leavesStore_setOutputAnswer : (setOutputAnswer params s).LeavesStore s := by
  unfold setOutputAnswer
  split
  · split
    · exact yields_whenRunning rfl
    · trivial
  · trivial

theorem leavesStore_definePatternAnswer : (definePatternAnswer params s).LeavesStore s := by
  obtain ⟨status, he⟩ | ⟨data, id, p, he⟩ := definePatternAnswer_cases params s
  · rw [he]; trivial
  · rw [he]
    show (s.definePattern id p).store = s.store
    rw [definePattern_rest]

theorem leavesStore_deletePatternAnswer : (deletePatternAnswer params s).LeavesStore s := by
  refine yields_oneParam params fun id => ?_
  split
  · trivial
  · split
    · trivial
    · rfl

theorem leavesStore_readPatternAnswer : (readPatternAnswer params s).LeavesStore s := by
  refine yields_oneParam params fun id => ?_
  split
  · trivial
  · rfl

theorem leavesStore_setLineAnswer : (setLineAnswer params s).LeavesStore s := by
  unfold setLineAnswer
  split
  · split
    · split
      · exact yields_whenRunning (store_of_supervises (supervises_setFilter s _ _ _))
      · trivial
    · trivial
  · trivial

theorem leavesStore_setLinkAnswer : (setLinkAnswer params s).LeavesStore s := by
  unfold setLinkAnswer
  split
  · split
    · exact yields_whenRunning rfl
    · trivial
  · trivial

variable {s}

/-- A request carried out from the store as it is makes of it what its effect makes of it. -/
theorem moves_of_request {f : Frame} {carryOut : State → Answer}
    (h : Host.Outcome.next (s.request f carryOut) = (.next t : Host.Outcome State Fault Refusal))
    (hk : ∀ u : State, u.store = s.store → (carryOut u).Yields fun v => s.store.Moves i v.store) :
    s.store.Moves i t.store := by
  obtain rfl := Host.Outcome.next.inj h
  have hanswer (u : State) (hu : u.store = s.store) (a : Answer) (ha : a.Yields fun v => s.store.Moves i v.store) :
      s.store.Moves i (u.answer f.tag a).store := by
    cases a with
    | refuse status => exact hu ▸ .keep
    | ok data v => exact ha
    | okThenReset v => exact ha
  obtain ⟨-, he⟩ | ⟨-, l, -, he | ⟨rest, -, -, he⟩⟩ := request_cases s f carryOut
  · rw [he]; exact .keep
  · rw [he]; exact .keep
  · have htaken : ({ s with link := { l with inbox := rest } } : State).store = s.store := rfl
    rw [he]
    exact hanswer _ htaken _ (hk _ htaken)

theorem yields_mono {P Q : State → Prop} {a : Answer} (h : a.Yields P) (hpq : ∀ v, P v → Q v) : a.Yields Q := by
  cases a with
  | refuse status => trivial
  | ok data v => exact hpq v h
  | okThenReset v => exact hpq v h

theorem moves_of_request_leaving {f : Frame} {carryOut : State → Answer}
    (h : Host.Outcome.next (s.request f carryOut) = (.next t : Host.Outcome State Fault Refusal))
    (hk : ∀ u : State, (carryOut u).LeavesStore u) : s.store.Moves i t.store :=
  moves_of_request h fun u hu => yields_mono (hk u) fun _ hv => (hv.trans hu) ▸ .keep

theorem moves_of_store_eq (h : t.store = s.store) : s.store.Moves i t.store := h ▸ .keep

/-- SAVE_PLAN begins a save only with no operation in flight and a generation left (R125). -/
theorem moves_savePlan {tag : Byte} (h : execSavePlan tag params s = .next t) : s.store.Moves (.savePlan tag params) t.store := by
  refine moves_of_request h fun u hu => yields_noParams params (yields_whenRunning ?_)
  rw [← hu]
  split
  · trivial
  · next hidle =>
    split
    · trivial
    · next hroom => exact .saveBegun u.snapshot u.time (not_not.1 hidle) hroom

/-- ERASE_PLAN begins an erase only with no operation in flight (R127). -/
theorem moves_erasePlan {tag : Byte} (h : execErasePlan tag params s = .next t) :
    s.store.Moves (.erasePlan tag params) t.store := by
  refine moves_of_request h fun u hu => yields_noParams params (yields_whenRunning ?_)
  rw [← hu]
  split
  · trivial
  · next hidle => exact .eraseBegun u.time (not_not.1 hidle)

theorem moves_unknownRequestCode {tag code : Byte} (h : execUnknownRequestCode tag code params s = .next t) :
    s.store.Moves i t.store := by
  unfold execUnknownRequestCode at h
  split at h
  · obtain rfl := Host.Outcome.next.inj h
    exact .keep
  · exact moves_of_request_leaving h fun _ => trivial

/-! Events -/

theorem moves_saveCompletion {matched : Bool} (h : execSaveCompletion matched s = .next t) :
    s.store.Moves (.saveCompletion matched) t.store := by
  obtain rfl := Host.Outcome.next.inj h
  split
  · next saving =>
    split
    · exact .keep
    · exact .saved matched saving
  · exact .keep

theorem moves_secondBankInvalidation (h : execSecondBankInvalidation s = .next t) :
    s.store.Moves .secondBankInvalidation t.store := by
  obtain rfl := Host.Outcome.next.inj h
  split
  · next erasing =>
    split
    · exact .keep
    · exact .secondInvalidated erasing
  · exact .keep

theorem moves_eraseCompletion (h : execEraseCompletion s = .next t) : s.store.Moves .eraseCompletion t.store := by
  obtain rfl := Host.Outcome.next.inj h
  split
  · next erasing =>
    split
    · exact .keep
    · exact .erased erasing
  · exact .keep

theorem store_acquireExpiry (h : execAcquireExpiry c s = .next t) : t.store = s.store :=
  store_of_supervises (supervises_acquireExpiry h)

theorem store_frameEndExpiry {o : Fin 6} (h : execFrameEndExpiry o s = .next t) : t.store = s.store := by
  obtain rfl := Host.Outcome.next.inj h
  split
  · split
    · rfl
    · rfl
  · rfl

theorem store_byteArrival {b : Byte} (h : execByteArrival b s = .next t) : t.store = s.store := by
  obtain rfl := Host.Outcome.next.inj h
  split
  · rfl
  · rfl

theorem store_framingFault (h : execFramingFault s = .next t) : t.store = s.store := by
  obtain rfl := Host.Outcome.next.inj h
  split
  · rfl
  · split
    · rfl
    · rfl

theorem store_gapExpiry (h : execGapExpiry s = .next t) : t.store = s.store := by
  obtain rfl := Host.Outcome.next.inj h
  split
  · split
    · rfl
    · rfl
  · rfl

theorem store_silenceExpiry (h : execSilenceExpiry s = .next t) : t.store = s.store := by
  obtain rfl := Host.Outcome.next.inj h
  split
  · split
    · rfl
    · rfl
  · rfl

/-- The load reads the store and does not write it (R133 to R136). -/
theorem store_planLoadEnd (h : execPlanLoadEnd s = .next t) : t.store = s.store := by
  obtain rfl := Host.Outcome.next.inj h
  split
  · exact (congrArg State.store (enterRunning_rest _ _ _)).trans rfl
  · rfl

/-- The end of a reset finds the banks of a lawful store as they are (R132). -/
theorem store_endReset (hs : s.store.Lawful) : s.endReset.store = s.store := by
  unfold State.endReset
  have ha := decide_of_lawful (hs.banks .a)
  have hb := decide_of_lawful (hs.banks .b)
  simp only [Store.bank] at ha hb
  rw [ha, hb]

theorem store_resetEnd (hs : s.store.Lawful) (h : execResetEnd s = .next t) : t.store = s.store := by
  obtain rfl := Host.Outcome.next.inj h
  split
  · exact store_endReset hs
  · rfl

/-- A reset abandons the operation in flight, and leaves the banks (R130). -/
theorem moves_beginReset (s : State) (cause : ResetCause) : s.store.Moves i (s.beginReset cause).store := .abandoned

theorem moves_replySent (hs : s.store.Lawful) (h : execReplySent s = .next t) : s.store.Moves i t.store := by
  obtain rfl := Host.Outcome.next.inj h
  split
  · split
    · split
      · have hmoves := moves_beginReset (i := i) s .resetRequest
        rw [store_endReset (lawful_of_moves hmoves hs)]
        exact hmoves
      · exact .keep
    · exact .keep
  · exact .keep

/-! Commands and steps -/

/-- Every command moves the store. -/
theorem moves_exec (i : Instr) (hs : s.store.Lawful) (h : exec i s = .next t) : s.store.Moves i t.store := by
  cases i with
  | arm tag params => exact moves_of_request_leaving h fun u => leavesStore_armAnswer u params
  | clearChannel tag params => exact moves_of_request_leaving h fun u => leavesStore_clearChannelAnswer u params
  | clearObserved tag params => exact moves_of_request_leaving h fun u => leavesStore_clearObservedAnswer u params
  | configureChannel tag params => exact moves_of_request_leaving h fun u => leavesStore_configureChannelAnswer u params
  | definePattern tag params => exact moves_of_request_leaving h fun u => leavesStore_definePatternAnswer u params
  | deletePattern tag params => exact moves_of_request_leaving h fun u => leavesStore_deletePatternAnswer u params
  | disarm tag params =>
    exact moves_of_request_leaving h fun u => yields_oneParam params fun c => store_disarm u c
  | erasePlan tag params => exact moves_erasePlan params h
  | fetch tag params => exact moves_of_request_leaving h fun _ => yields_oneParam params fun _ => rfl
  | identify tag params => exact moves_of_request_leaving h fun _ => yields_noParams params rfl
  | inject tag params => exact moves_of_request_leaving h fun u => leavesStore_injectAnswer u params
  | pause tag params => exact moves_of_request_leaving h fun u => leavesStore_pauseAnswer u params
  | readChannel tag params => exact moves_of_request_leaving h fun _ => yields_oneParam params fun _ => rfl
  | readLine tag params => exact moves_of_request_leaving h fun _ => yields_oneParam params fun _ => rfl
  | readObserved tag params => exact moves_of_request_leaving h fun u => leavesStore_readObservedAnswer u params
  | readOutput tag params => exact moves_of_request_leaving h fun _ => yields_oneParam params fun _ => rfl
  | readPattern tag params => exact moves_of_request_leaving h fun u => leavesStore_readPatternAnswer u params
  | readReaction tag params => exact moves_of_request_leaving h fun _ => yields_oneParam params fun _ => rfl
  | rearm tag params => exact moves_of_request_leaving h fun u => leavesStore_rearmAnswer u params
  | resetRequest tag params =>
    exact moves_of_request_leaving h fun _ => yields_noParams params (yields_whenRunning rfl)
  | resume tag params => exact moves_of_request_leaving h fun u => leavesStore_resumeAnswer u params
  | savePlan tag params => exact moves_savePlan params h
  | setAttention tag params => exact moves_of_request_leaving h fun _ => yields_oneParam params fun _ => rfl
  | setLine tag params => exact moves_of_request_leaving h fun u => leavesStore_setLineAnswer u params
  | setLink tag params => exact moves_of_request_leaving h fun u => leavesStore_setLinkAnswer u params
  | setOutput tag params => exact moves_of_request_leaving h fun u => leavesStore_setOutputAnswer u params
  | setReaction tag params => exact moves_of_request_leaving h fun u => leavesStore_setReactionAnswer u params
  | status tag params => exact moves_of_request_leaving h fun _ => yields_noParams params rfl
  | rawChange l level => exact moves_of_store_eq (store_of_supervises (supervises_rawChange h))
  | qualificationExpiry l => exact moves_of_store_eq (store_of_supervises (supervises_qualificationExpiry h))
  | stepDeadline c =>
    obtain rfl := Host.Outcome.next.inj h
    exact moves_of_store_eq (turn_deliverDeadline s c).store
  | acquireExpiry c => exact moves_of_store_eq (store_acquireExpiry h)
  | frameEndExpiry o => exact moves_of_store_eq (store_frameEndExpiry h)
  | saveCompletion matched => exact moves_saveCompletion h
  | secondBankInvalidation => exact moves_secondBankInvalidation h
  | eraseCompletion => exact moves_eraseCompletion h
  | powerOn =>
    obtain rfl := Host.Outcome.next.inj h
    exact moves_beginReset s _
  | resetLine =>
    obtain rfl := Host.Outcome.next.inj h
    exact moves_beginReset { s with resetn := .low } _
  | resetEnd => exact moves_of_store_eq (store_resetEnd hs h)
  | planLoadEnd => exact moves_of_store_eq (store_planLoadEnd h)
  | byteArrival b => exact moves_of_store_eq (store_byteArrival h)
  | framingFault => exact moves_of_store_eq (store_framingFault h)
  | gapExpiry => exact moves_of_store_eq (store_gapExpiry h)
  | replySent => exact moves_replySent hs h
  | silenceExpiry => exact moves_of_store_eq (store_silenceExpiry h)
  | unknownRequestCode tag code params => exact moves_unknownRequestCode params h

/-- Every step keeps the law of the Plan Store. -/
theorem storeLaw_step (hl : s.Lawful) (h : step s = .next t) : t.StoreLaw := by
  have hs := storeLaw_iff.1 hl.store
  obtain ⟨i, pending, draws, h⟩ | rfl := step_cases h
  · exact storeLaw_iff.2 (lawful_of_moves (moves_exec i (s := { s with pending, draws }) hs h) hs)
  · exact storeLaw_iff.2 (store_pass s ▸ hs)

/-- Settles O15, from the moves of the store: each keeps the law, and each says which banks it writes. -/
theorem storeLawKept : Obligations.StoreLawKept := by
  refine ⟨fun s t hl h => storeLaw_step hl h, fun s t c hl h => ?_⟩
  have hs := storeLaw_iff.1 hl.store
  have hmoves := moves_exec c hs h
  have hmismatch (j : BankId) (hv : (t.store.bank j).valid = false) :
      (t.store.bank j).valid = false ∧
        ∀ b : BankContent, (t.store.bank j).content = some b → b.checkMatches = false :=
    ⟨hv, fun _ => mismatch_of_invalid ((lawful_of_moves hmoves hs).banks j) hv⟩
  refine ⟨fun target j g img since saving hj _ => bank_of_moves_saving hmoves saving hj,
    fun second since erasing hsecond hend _ => bank_of_moves_erasing hmoves erasing hsecond hend,
    fun target g img since saving hend => hmismatch target (invalid_target_of_moves hmoves hs saving hend),
    fun remaining since j erasing hj => hmismatch j (invalid_of_moves_erasing hmoves hs erasing hj)⟩

end Sys2Proof.Machine

/-! SAVE_PLAN and ERASE_PLAN, as the executor carries them out in RUNNING, and the events that end a save and an erase (R125 to
R128, R166). -/

namespace Sys2Proof.Machine

variable {s : State}

/-! The requests -/

theorem savePlanAnswer_of_running (hd : s.device = .running) :
    savePlanAnswer [] s =
      if s.store.op ≠ .idle then .refuse .storeBusy
      else if s.store.newestGeneration = some 4294967295 then .refuse .storeExhausted
      else .ok ([s.store.other.toByte] ++ time32 s.store.nextGeneration) s.startSave := if_pos hd

theorem erasePlanAnswer_of_running (hd : s.device = .running) :
    erasePlanAnswer [] s =
      if s.store.op ≠ .idle then .refuse .storeBusy
      else .ok [s.store.other.toByte, s.store.second.toByte] s.startErase := if_pos hd

/-- Settles O31: the answers of the executor, in the order of the checks, and the effects of the two operations. -/
theorem saveAndErase : Obligations.SaveAndErase := by
  refine fun s tag rest => ⟨fun ⟨htakes, hd⟩ => ?_, fun ⟨htakes, hd⟩ => ?_⟩
  · have hanswer := savePlanAnswer_of_running (s := s.taken rest) hd
    refine ⟨fun hbusy => ?_, fun hidle hlast => ?_, fun hidle hroom g hg => ?_⟩
    · exact congrArg _ (request_refused htakes (hanswer.trans (if_pos hbusy)))
    · have hanswer := (hanswer.trans (if_neg (not_not.2 hidle))).trans (if_pos hlast)
      exact congrArg _ (request_refused htakes hanswer)
    · have hanswer := (hanswer.trans (if_neg (not_not.2 hidle))).trans (if_neg hroom)
      obtain rfl : g = s.store.nextGeneration := hg
      exact congrArg _ (request_accepted htakes hanswer rfl rfl)
  · have hanswer := erasePlanAnswer_of_running (s := s.taken rest) hd
    refine ⟨fun hbusy => ?_, fun hidle => ?_⟩
    · exact congrArg _ (request_refused htakes (hanswer.trans (if_pos hbusy)))
    · have hanswer := hanswer.trans (if_neg (not_not.2 hidle))
      exact congrArg _ (request_accepted htakes hanswer rfl rfl)

/-! The events -/

/-- A save completes at another device time than that of its acceptance (R126). -/
theorem saveCompletion_of_saving {target : BankId} {g : Count32} {img : Image} {since : Time} (matched : Bool)
    (saving : s.store.op = .saving target g img since) (h : s.time ≠ since) :
    exec (.saveCompletion matched) s = .next { s with
      store := { s.store.putBank target
          (if matched then { content := some { image := img, generation := g, checkMatches := true }, valid := true }
          else { content := none, valid := false }) with op := .idle }
      queue := s.queue.offer s.time .device (.store .save matched (if matched then some g else none)) } := by
  show execSaveCompletion matched s = _
  unfold execSaveCompletion
  rw [saving]
  exact congrArg Host.Outcome.next (if_neg h)

/-- Without a save in flight that was accepted at another device time there is no completion (logs 2 and 9). -/
theorem saveCompletion_without_effect (matched : Bool)
    (h : ∀ target g img since, s.store.op = .saving target g img since → s.time = since) :
    exec (.saveCompletion matched) s = .next s := by
  refine congrArg Host.Outcome.next ?_
  split
  · next saving => exact if_pos (h _ _ _ _ saving)
  · rfl

theorem secondBankInvalidation_of_erasing {second : BankId} {since : Time}
    (erasing : s.store.op = .erasing (some second) since) (h : s.time ≠ since) :
    exec .secondBankInvalidation s = .next { s with
      store := { s.store.putBank second { content := none, valid := false } with op := .erasing none since } } := by
  show execSecondBankInvalidation s = _
  unfold execSecondBankInvalidation
  rw [erasing]
  exact congrArg Host.Outcome.next (if_neg h)

/-- Without a second bank still to be invalidated, by an erase accepted at another device time, nothing is invalidated (logs 2
and 9). -/
theorem secondBankInvalidation_without_effect (h : ∀ second since, s.store.op = .erasing (some second) since → s.time = since) :
    exec .secondBankInvalidation s = .next s := by
  refine congrArg Host.Outcome.next ?_
  split
  · next erasing => exact if_pos (h _ _ erasing)
  · rfl

theorem eraseCompletion_of_erasing {remaining : Option BankId} {since : Time}
    (erasing : s.store.op = .erasing remaining since) (h : s.time ≠ since) :
    exec .eraseCompletion s = .next { s with
      store :=
        { bankA := { content := none, valid := false }, bankB := { content := none, valid := false }, op := .idle }
      queue := s.queue.offer s.time .device (.store .erase true none) } := by
  show execEraseCompletion s = _
  unfold execEraseCompletion
  rw [erasing]
  exact congrArg Host.Outcome.next (if_neg h)

/-- Without an erase in flight that was accepted at another device time there is no completion (logs 2 and 9). -/
theorem eraseCompletion_without_effect (h : ∀ remaining since, s.store.op = .erasing remaining since → s.time = since) :
    exec .eraseCompletion s = .next s := by
  refine congrArg Host.Outcome.next ?_
  split
  · next erasing => exact if_pos (h _ _ erasing)
  · rfl

/-- Settles O32: the operation in flight decides which of the three events has an effect. -/
theorem storeOperationsComplete : Obligations.StoreOperationsComplete := by
  refine fun s => ⟨fun target g img since matched saving => ?_, fun second since erasing => ?_, fun since erasing => ?_,
    fun remaining since erasing => ?_, fun idle matched => ?_⟩
  · refine ⟨saveCompletion_of_saving matched saving, fun heq => saveCompletion_without_effect matched ?_,
      secondBankInvalidation_without_effect ?_, eraseCompletion_without_effect ?_⟩
    · intro _ _ _ _ saving'
      cases saving.symm.trans saving'
      exact heq
    · exact fun _ _ erasing => nomatch saving.symm.trans erasing
    · exact fun _ _ erasing => nomatch saving.symm.trans erasing
  · refine ⟨secondBankInvalidation_of_erasing erasing, fun heq => secondBankInvalidation_without_effect ?_⟩
    intro _ _ erasing'
    cases erasing.symm.trans erasing'
    exact heq
  · exact secondBankInvalidation_without_effect fun _ _ erasing' => nomatch erasing.symm.trans erasing'
  · refine ⟨eraseCompletion_of_erasing erasing, fun heq => eraseCompletion_without_effect ?_,
      fun matched => saveCompletion_without_effect matched ?_⟩
    · intro _ _ erasing'
      cases erasing.symm.trans erasing'
      exact heq
    · exact fun _ _ _ _ saving => nomatch erasing.symm.trans saving
  · exact ⟨saveCompletion_without_effect matched (fun _ _ _ _ saving => nomatch idle.symm.trans saving),
      secondBankInvalidation_without_effect (fun _ _ erasing => nomatch idle.symm.trans erasing),
      eraseCompletion_without_effect (fun _ _ erasing => nomatch idle.symm.trans erasing)⟩

end Sys2Proof.Machine

/-! A request frame that waits, and one handed to the model whole: it becomes good, and joins the inbox or finds it full (R132,
R141 to R143). -/

namespace Sys2Proof.Machine

variable {s : State} {f : Frame} (carryOut : State → Answer)

/-! The frame becomes good -/

theorem restart_eq (k : Link) (now : Time) :
    k.restart now = { k with source := k.source.restarted (after now (k.timeout * 1000)) } := by
  unfold Link.restart LinkState.restarted
  obtain ⟨receiver, errors, inbox, busy, replies, sendStart, source, timeout⟩ := k
  cases source <;> rfl

/-- With room in the inbox a good frame joins it (R141, R142). -/
theorem goodFrame_room (k : Link) (now : Time) (h : k.inbox.length < 2) :
    k.goodFrame now f =
      { k with source := k.source.restarted (after now (k.timeout * 1000)), inbox := k.inbox ++ [f] } := by
  rw [Link.goodFrame, restart_eq]
  exact enqueue_room _ now f h

/-- A full inbox has the frame counted, and answered BUSY when the reply queue has a place (R142). -/
theorem goodFrame_busy (k : Link) (now : Time) (h : 2 ≤ k.inbox.length) (hr : k.replies.length < 4) :
    k.goodFrame now f =
      { k with
        source := k.source.restarted (after now (k.timeout * 1000))
        busy := satSucc k.busy
        replies := k.replies ++ [{ tag := f.tag, status := .busy, data := [], thenReset := false }]
        sendStart := if k.replies = [] then some now else k.sendStart } := by
  have hbusy := enqueue_busy { k with source := k.source.restarted (after now (k.timeout * 1000)) } now f h hr
  rw [Link.goodFrame, restart_eq, hbusy, push_eq]

/-- With the reply queue full too the frame is lost, and counted as an error (R142). -/
theorem goodFrame_lost (k : Link) (now : Time) (h : 2 ≤ k.inbox.length) (hr : 4 ≤ k.replies.length) :
    k.goodFrame now f =
      { k with
        source := k.source.restarted (after now (k.timeout * 1000))
        busy := satSucc k.busy
        errors := satSucc k.errors } := by
  rw [Link.goodFrame, restart_eq]
  exact enqueue_lost _ now f h hr

theorem inbox_goodFrame_full (k : Link) (now : Time) (f : Frame) (h : 2 ≤ k.inbox.length) :
    (k.goodFrame now f).inbox = k.inbox := by
  by_cases hr : k.replies.length < 4
  · rw [goodFrame_busy k now h hr]
  · rw [goodFrame_lost k now h (Nat.not_lt.1 hr)]

/-! The request -/

/-- A frame behind another one waits (R143). -/
theorem request_behind {g : Frame} {rest : List Frame} (hinbox : s.link.inbox = g :: rest) (hmem : f ∈ rest) (hne : f ≠ g) :
    s.request f carryOut = s := by
  have hin : f ∈ s.link.inbox := by rw [hinbox]; exact List.mem_cons_of_mem g hmem
  obtain ⟨-, he⟩ | ⟨-, l, ⟨-, rfl⟩ | ⟨hout, -⟩, hcase⟩ := request_cases s f carryOut
  · exact he
  · obtain he | ⟨rest', hfront, -⟩ := hcase
    · exact he
    · rw [hinbox] at hfront
      cases hfront
      exact absurd rfl hne
  · exact absurd hin hout

/-- A frame that joins the inbox as it becomes good is taken, or waits, as one that was there (log 3). -/
theorem request_joins (hd : s.device ≠ .reset) (hout : f ∉ s.link.inbox) (hin : f ∈ (s.link.goodFrame s.time f).inbox) :
    s.request f carryOut = State.request { s with link := s.link.goodFrame s.time f } f carryOut := by
  unfold State.request
  simp only [hd, List.contains_eq_mem, hout, hin, decide_false, decide_true, Bool.false_eq_true, if_false, if_true]

/-- A frame that finds the inbox full is not carried out (R142). -/
theorem request_full (hd : s.device ≠ .reset) (hout : f ∉ s.link.inbox) (hfull : 2 ≤ s.link.inbox.length) :
    s.request f carryOut = { s with link := s.link.goodFrame s.time f } := by
  obtain ⟨hreset, -⟩ | ⟨-, l, ⟨hin, -⟩ | ⟨-, rfl⟩, hcase⟩ := request_cases s f carryOut
  · exact absurd hreset hd
  · exact absurd hin hout
  · obtain he | ⟨rest, hfront, -⟩ := hcase
    · exact he
    · rw [inbox_goodFrame_full s.link s.time f hfull] at hfront
      exact absurd (hfront ▸ List.mem_cons_self) hout

/-- The command that a frame names is a request of that frame: one of the 28, or one that is refused (R145, R172). -/
theorem exec_ofFrame (f : Frame) : ∃ carryOut : State → Answer, ∀ s : State,
    exec (Instr.ofFrame f) s = .next (s.request f carryOut) := by
  obtain ⟨tag, code, params⟩ := f
  unfold Instr.ofFrame
  simp only
  split
  case h_29 =>
    have hunknown : ¬requestCodes.contains code = true := by simp_all [requestCodes]
    exact ⟨fun _ => .refuse .unknownRequest, fun s => congrArg Host.Outcome.next (if_neg hunknown)⟩
  all_goals exact ⟨_, fun _ => rfl⟩

/-- Settles O22: the request of a frame, by where the frame stands and by the room in the inbox and in the reply queue. -/
theorem aRequestWaitsOrBecomesGoodFirst : Obligations.ARequestWaitsOrBecomesGoodFirst := by
  refine ⟨fun f s hin hwait => ?_, fun f g rest s hinbox hmem hne => ?_, fun f s hreset => ?_, fun f s hout hd hroom => ?_,
    fun f s hout hd hfull => ⟨fun hr => ?_, fun hr => ?_⟩⟩
  all_goals
    obtain ⟨carryOut, hexec⟩ := exec_ofFrame f
    simp only [hexec]
    refine congrArg Host.Outcome.next ?_
  · refine request_waits s f carryOut hin ?_
    rw [← Bool.not_eq_true, executorReady_iff]
    rintro ⟨hplace, hnone⟩
    obtain hfull | ⟨r, hr, hreset⟩ := hwait
    · exact absurd hplace (Nat.not_lt.2 hfull)
    · rw [hnone r hr] at hreset
      cases hreset
  · exact request_behind carryOut hinbox hmem hne
  · exact if_pos hreset
  · have hgood := goodFrame_room (f := f) s.link s.time hroom
    rw [request_joins carryOut hd hout (by rw [hgood]; simp), hgood]
  · rw [request_full carryOut hd hout hfull, goodFrame_busy s.link s.time hfull hr]
  · rw [request_full carryOut hd hout hfull, goodFrame_lost s.link s.time hfull hr]

end Sys2Proof.Machine

/-! The snapshot that a save takes: item by item it passes the checks of the load and loads back as the item it was (R123, R134,
R135). -/

namespace Sys2Proof.Machine

variable {s : State}

/-! Patterns -/

theorem toPattern_toImage (p : Pattern) (id : Nat) : (p.toImage id).toPattern = p := by
  have hlevel : (if (levelByte p.startLevel).toNat = 0 then Level.low else .high) = p.startLevel := by
    cases p.startLevel <;> rfl
  have hsteps : (p.toImage id).toPattern.steps = p.steps := by
    refine (List.map_map ..).trans ?_
    conv_rhs => rw [← List.map_id p.steps]
    refine List.map_congr_left fun st _ => ?_
    obtain ⟨min, max, mark⟩ := st
    cases mark <;> rfl
  exact congrArg₂ Pattern.mk hlevel hsteps

theorem accepted_toImage {p : Pattern} (h : p.Lawful) (id : Fin 16) : (p.toImage id).accepted = true := by
  obtain ⟨heven, hmin, hmax, hsteps⟩ := h
  have hlevel : (levelByte p.startLevel).toNat ≤ 1 := by cases p.startLevel <;> decide
  have hlength : (p.toImage id).steps.length = p.steps.length := List.length_map ..
  simp only [ImagePattern.accepted, hlength, Bool.and_eq_true, decide_eq_true_eq, List.all_eq_true]
  refine ⟨⟨⟨⟨⟨Nat.le_of_lt_succ id.isLt, hlevel⟩, heven⟩, hmin⟩, hmax⟩, fun x hx => ?_⟩
  obtain ⟨st, hst, rfl⟩ := List.mem_map.1 hx
  obtain ⟨hlt, hle⟩ := hsteps st hst
  have hmark : (if st.mark then 1 else 0) ≤ 1 := by split <;> decide
  simp only [ImageStep.accepted, Bool.and_eq_true, decide_eq_true_eq]
  exact ⟨⟨⟨by show st.min ≤ 16777214; omega, hlt⟩, hle⟩, hmark⟩

theorem mem_patterns_snapshot {x : ImagePattern} :
    x ∈ s.snapshot.patterns ↔ ∃ (id : Fin 16) (p : Pattern), s.patterns[id] = some p ∧ p.toImage id = x := by
  simp only [State.snapshot, List.mem_filterMap, List.mem_finRange, true_and, Option.map_eq_some_iff]

/-- The snapshot holds each present pattern once, under its id (R16, R123). -/
theorem table_snapshot (s : State) : s.snapshot.table = s.patterns := by
  refine Vector.ext fun i hi => ?_
  have hget := table_get s.snapshot ⟨i, hi⟩
  refine hget.trans ?_
  cases hf : s.snapshot.patterns.find? fun p => p.id = i with
  | none =>
    cases hp : s.patterns[i] with
    | none => rfl
    | some p =>
      exact absurd (List.find?_eq_none.1 hf _ (mem_patterns_snapshot.2 ⟨⟨i, hi⟩, p, hp, rfl⟩)) (by simp [Pattern.toImage])
  | some x =>
    obtain ⟨id, p, hp, rfl⟩ := mem_patterns_snapshot.1 (List.mem_of_find?_eq_some hf)
    have hfound := List.find?_some hf
    have hid : id.val = i := of_decide_eq_true hfound
    subst hid
    rw [Option.map_some, toPattern_toImage]
    exact hp.symm

theorem nodup_ids_snapshot (s : State) : (s.snapshot.patterns.map (·.id)).Nodup := by
  unfold State.snapshot
  simp only [List.map_filterMap]
  refine List.Nodup.filterMap (fun a b x ha hb => ?_) (List.nodup_finRange 16)
  simp only [Option.mem_def, Option.map_eq_some_iff] at ha hb
  obtain ⟨_, ⟨p, -, rfl⟩, rfl⟩ := ha
  obtain ⟨_, ⟨q, -, rfl⟩, hid⟩ := hb
  exact Fin.ext hid.symm

/-- The image of the patterns in some slots has the steps of those slots. -/
theorem sum_steps_image (s : State) (ids : List (Fin 16)) :
    ((ids.filterMap fun id => s.patterns[id].map (Pattern.toImage id)).map (·.steps.length)).sum =
      (ids.map fun id => slotSteps s.patterns[id]).sum := by
  induction ids with
  | nil => rfl
  | cons id ids ih =>
    cases hp : s.patterns[id] with
    | none =>
      rw [List.filterMap_cons_none (by rw [hp]; rfl), ih, List.map_cons, hp]
      simp [slotSteps]
    | some p =>
      rw [List.filterMap_cons_some (by rw [hp]; rfl), List.map_cons, List.sum_cons, ih, List.map_cons, List.sum_cons, hp]
      simp [slotSteps, Pattern.toImage]

/-- The patterns of the snapshot have the steps that are in use (R4). -/
theorem sum_steps_snapshot (s : State) : (s.snapshot.patterns.map (·.steps.length)).sum = s.stepsInUse := by
  rw [State.stepsInUse, stepsIn_eq_sum, Fin.sum_univ_def]
  exact sum_steps_image s (List.finRange 16)

/-! Channels -/

theorem toConfig_toImage (cfg : ChannelConfig) : cfg.toImage.toConfig = some cfg := by
  obtain ⟨line, pattern, strikeLimit, forgive, acquire, report, bootArmed⟩ := cfg
  simp [ChannelConfig.toImage, ImageConfig.toConfig]

/-- A configuration in range that names a present pattern passes the checks (R134). -/
theorem accepted_config_toImage {cfg : ChannelConfig} {p : Pattern} (h : cfg.InRange) (hp : s.patterns[cfg.pattern] = some p) :
    cfg.toImage.accepted (s.snapshot.patterns.map (·.id)) = true := by
  obtain ⟨hmin, hmax, hforgive, hacquire⟩ := h
  have hnamed : cfg.pattern.val ∈ s.snapshot.patterns.map (·.id) :=
    List.mem_map.2 ⟨p.toImage cfg.pattern, mem_patterns_snapshot.2 ⟨_, p, hp, rfl⟩, rfl⟩
  have hboot : (if cfg.bootArmed then 1 else 0) ≤ 1 := by split <;> decide
  have hlimit : (match cfg.acquire with | none => true | some n => decide (1 ≤ n) && decide (n ≤ 16777215)) = true := by
    cases ha : cfg.acquire with
    | none => rfl
    | some n => simpa using hacquire n ha
  simp only [ImageConfig.accepted, Bool.and_eq_true, decide_eq_true_eq, List.contains_iff_mem]
  exact ⟨⟨⟨⟨⟨⟨⟨Nat.le_of_lt_succ cfg.line.isLt, hnamed⟩, hmin⟩, hmax⟩, hforgive⟩, hlimit⟩, cfg.report.isLt⟩, hboot⟩

theorem channels_snapshot (s : State) (c : Fin 8) :
    s.snapshot.channels[c] = s.channels[c].config.map ChannelConfig.toImage := Vector.getElem_ofFn c.isLt

theorem accepted_channels_snapshot (h : s.ChannelLaw) (c : Fin 8) {ic : ImageConfig} (hic : s.snapshot.channels[c] = some ic) :
    ic.accepted (s.snapshot.patterns.map (·.id)) = true := by
  rw [channels_snapshot] at hic
  obtain ⟨cfg, hc, rfl⟩ := Option.map_eq_some_iff.1 hic
  obtain ⟨p, hp, hconfigured⟩ := (channelLawAt_configured hc).1 (h c)
  exact accepted_config_toImage hconfigured.range hp

/-! Reactions and outputs -/

theorem toReaction_toImage (r : Reaction) : r.toImage.toReaction = some r := by
  simp [Reaction.toImage, ImageReaction.toReaction, sourceOfNat_code, driveOfNat_code]

theorem accepted_reaction_toImage (r : Reaction) : r.toImage.accepted = true := by
  have hsource : (sourceOfNat r.toImage.source).isSome = true := Option.isSome_of_eq_some (sourceOfNat_code r.source)
  have hdrive : (driveOfNat r.toImage.drive).isSome = true := Option.isSome_of_eq_some (driveOfNat_code r.drive)
  simp only [ImageReaction.accepted, Bool.and_eq_true, decide_eq_true_eq]
  exact ⟨⟨⟨hsource, Nat.le_of_lt_succ r.output.isLt⟩, hdrive⟩, Nat.le_of_lt_succ r.priority.isLt⟩

theorem reactions_snapshot (s : State) (i : Fin 32) : s.snapshot.reactions[i] = s.reactions[i].map Reaction.toImage :=
  Vector.getElem_ofFn i.isLt

theorem outputs_snapshot (s : State) (o : Fin 6) :
    s.snapshot.outputs[o] = { base := s.outputs[o].base.code, rate := s.outputs[o].rate } := Vector.getElem_ofFn o.isLt

theorem accepted_output_snapshot (s : State) (o : Fin 6) : s.snapshot.outputs[o].accepted = true := by
  rw [outputs_snapshot]
  simp only [ImageOutput.accepted, driveOfNat_code, Option.isSome_some, Bool.true_and, decide_eq_true_eq]
  exact Nat.le_of_lt_succ s.outputs[o].rate.isLt

/-! Lines -/

theorem filters_snapshot (s : State) (l : Fin 8) : s.snapshot.filters[l] = s.lines[l].filter := Vector.getElem_ofFn l.isLt

/-! The snapshot -/

/-- What holds of the record at every index holds of all of them. -/
theorem all_toList_of_get {α : Type} {n : Nat} {v : Vector α n} {q : α → Bool} (h : ∀ i : Fin n, q v[i] = true) :
    v.toList.all q = true := by
  rw [List.all_eq_true]
  intro x hx
  obtain ⟨i, hi, rfl⟩ := Vector.getElem_of_mem (Vector.mem_toList_iff.1 hx)
  exact h ⟨i, hi⟩

/-- The snapshot of a lawful part passes every check of R134. -/
theorem accepted_snapshot (h : s.Lawful) : s.snapshot.accepted = true := by
  obtain ⟨hlawful, hpool⟩ := h.patterns
  obtain ⟨-, -, -, -, -, htimeout, -⟩ := h.link
  have hpatterns : ∀ x ∈ s.snapshot.patterns, x.accepted = true := by
    intro x hx
    obtain ⟨id, p, hp, rfl⟩ := mem_patterns_snapshot.1 hx
    exact accepted_toImage (hlawful id p hp) id
  simp only [Image.accepted, Bool.and_eq_true, decide_eq_true_eq, List.all_eq_true.2 hpatterns, nodup_ids_snapshot,
    sum_steps_snapshot, true_and]
  refine ⟨⟨⟨⟨⟨⟨hpool, ?_⟩, ?_⟩, ?_⟩, ?_⟩, ?_⟩, ?_⟩
  · refine all_toList_of_get fun c => ?_
    cases hic : s.snapshot.channels[c] with
    | none => rfl
    | some ic => exact accepted_channels_snapshot h.channels c hic
  · refine all_toList_of_get fun i => ?_
    rw [reactions_snapshot]
    cases s.reactions[i] with
    | none => rfl
    | some r => exact accepted_reaction_toImage r
  · exact all_toList_of_get (accepted_output_snapshot s)
  · refine all_toList_of_get fun l => ?_
    obtain ⟨hfilter, -⟩ := h.lines l
    rw [filters_snapshot]
    exact decide_eq_true hfilter
  · simpa [State.snapshot] using htimeout
  · exact s.queue.mask.isLt

/-! Loading it back -/

theorem config_loadPlan_snapshot (s r : State) (c : Fin 8) :
    (r.loadPlan s.snapshot).channels[c].config = s.channels[c].config := by
  rw [channels_loadPlan, channels_snapshot]
  show (s.channels[c].config.map ChannelConfig.toImage).bind ImageConfig.toConfig = _
  rw [Option.bind_map]
  cases s.channels[c].config with
  | none => rfl
  | some cfg => exact toConfig_toImage cfg

theorem reactions_loadPlan_snapshot (s r : State) : (r.loadPlan s.snapshot).reactions = s.reactions := by
  refine Vector.ext fun i hi => (reactions_loadPlan r s.snapshot ⟨i, hi⟩).trans ?_
  rw [reactions_snapshot, Option.bind_map]
  show s.reactions[i].bind _ = s.reactions[i]
  cases s.reactions[i] with
  | none => rfl
  | some x => exact toReaction_toImage x

theorem output_loadPlan_snapshot (r : State) (h : s.Lawful) (o : Fin 6) :
    (r.loadPlan s.snapshot).outputs[o].base = s.outputs[o].base ∧
      (r.loadPlan s.snapshot).outputs[o].rate = s.outputs[o].rate := by
  obtain ⟨base, rate, hbase, hrate, hout⟩ := outputs_loadPlan r (accepted_snapshot h) o
  rw [outputs_snapshot] at hbase hrate
  rw [driveOfNat_code] at hbase
  rw [hout]
  exact ⟨(Option.some.inj hbase).symm, Fin.ext hrate⟩

/-- Settles O33: the checks hold of each item of the snapshot, and each item loads back. -/
theorem aSavedPlanLoadsBack : Obligations.ASavedPlanLoadsBack := by
  refine fun s r h => ⟨accepted_snapshot h, table_snapshot s, config_loadPlan_snapshot s r, reactions_loadPlan_snapshot s r,
    output_loadPlan_snapshot r h, fun l => ?_, rfl, ?_⟩
  · rw [lines_loadPlan]
    exact filters_snapshot s l
  · show BitVec.ofNat 3 s.queue.mask.toNat = s.queue.mask
    rw [BitVec.ofNat_toNat, BitVec.setWidth_eq]

end Sys2Proof.Machine

/-! The forms on the link: the bytes of numbers, of frames and of notice records (R138, R170, R171, R174). -/

namespace Sys2Proof.Machine

/-! Numbers -/

theorem be16_form {n : Nat} (h : n < 65536) : ∃ a b : Byte, be16 n = [a, b] ∧ n = a.toNat * 256 + b.toNat :=
  ⟨byte (n / 256), byte n, rfl, by simp only [byte_toNat]; omega⟩

theorem be24_form {n : Nat} (h : n < 16777216) :
    ∃ a b c : Byte, be24 n = [a, b, c] ∧ n = (a.toNat * 256 + b.toNat) * 256 + c.toNat :=
  ⟨byte (n / 65536), byte (n / 256), byte n, be24_eq n h, by simp only [byte_toNat]; omega⟩

theorem be32_form {n : Nat} (h : n < 4294967296) :
    ∃ a b c d : Byte, be32 n = [a, b, c, d] ∧ n = ((a.toNat * 256 + b.toNat) * 256 + c.toNat) * 256 + d.toNat :=
  ⟨byte (n / 16777216), byte (n / 65536), byte (n / 256), byte n, rfl, by simp only [byte_toNat]; omega⟩

theorem toNat_toByte_channel (c : Fin 8) : (Source.channel c).toByte.toNat = c.val := by
  show (byte c.val).toNat = c.val
  rw [byte_toNat]
  omega

/-- The weights of a set sum to a number whose bits are the members of the set. -/
theorem weights_range (g : Nat → Bool) (n : Nat) :
    (List.range n).foldl (fun sum i => if g i then sum + 2 ^ i else sum) 0 < 2 ^ n ∧
      ∀ i, i < n → ((List.range n).foldl (fun sum i => if g i then sum + 2 ^ i else sum) 0).testBit i = g i := by
  induction n with
  | zero => exact ⟨Nat.one_pos, nofun⟩
  | succ n ih =>
    obtain ⟨hlt, hbit⟩ := ih
    rw [List.range_succ, List.foldl_append]
    generalize (List.range n).foldl (fun sum i => if g i then sum + 2 ^ i else sum) 0 = sum at hlt hbit
    have hpow : 2 ^ (n + 1) = 2 ^ n + 2 ^ n := by omega
    show (if g n then sum + 2 ^ n else sum) < _ ∧ ∀ i, i < n + 1 → (if g n then sum + 2 ^ n else sum).testBit i = g i
    cases hn : g n with
    | false =>
      refine ⟨by rw [if_neg nofun]; omega, fun i hi => ?_⟩
      rw [if_neg nofun]
      obtain hi | rfl := Nat.lt_succ_iff_lt_or_eq.1 hi
      · exact hbit i hi
      · rw [hn, Nat.testBit_lt_two_pow hlt]
    | true =>
      refine ⟨by rw [if_pos rfl]; omega, fun i hi => ?_⟩
      rw [if_pos rfl, Nat.add_comm]
      obtain hi | rfl := Nat.lt_succ_iff_lt_or_eq.1 hi
      · rw [Nat.testBit_two_pow_add_gt hi, hbit i hi]
      · rw [Nat.testBit_two_pow_add_eq, Nat.testBit_lt_two_pow hlt, hn]
        rfl

/-- Bit `c` of a set's byte says whether `c` is in the set (R170). -/
theorem getLsbD_channelSet (f : Fin 8 → Bool) (c : Fin 8) : (channelSet f).getLsbD c = f c := by
  obtain ⟨hlt, hbit⟩ := weights_range (fun i => if h : i < 8 then f ⟨i, h⟩ else false) 8
  have hset : channelSet f =
      byte ((List.range 8).foldl (fun sum i => if (if h : i < 8 then f ⟨i, h⟩ else false) then sum + 2 ^ i else sum) 0) := rfl
  rw [hset, byte, BitVec.getLsbD_ofNat, hbit c c.isLt]
  simp

/-- The weights of the kinds in a report mask (R170). -/
theorem reports_iff (mask : BitVec 5) (kind : DeviationKind) :
    reports mask kind = true ↔
      mask &&& (match kind with | .early => 0x01 | .late => 0x02 | .noSignal => 0x04 | .injected => 0x08) ≠ 0 := by
  cases kind <;> revert mask <;> decide

theorem reportsMark_iff (mask : BitVec 5) : reportsMark mask = true ↔ mask &&& 0x10 ≠ 0 := by
  revert mask
  decide

/-! Optional fields -/

theorem optional_byte (x : Option Nat) :
    optional (x.map fun n => [byte n]) 1 = match x with | some n => [1, byte n] | none => [0, 0] := by
  cases x <;> rfl

theorem optional_be24 (x : Option Nat) :
    optional (x.map be24) 3 = match x with | some n => 1 :: be24 n | none => [0, 0, 0, 0] := by
  cases x <;> rfl

theorem optional_time32 (x : Option Count32) :
    optional (x.map time32) 4 = match x with | some g => 1 :: be32 g.toNat | none => [0, 0, 0, 0, 0] := by
  cases x <;> rfl

/-- An optional field takes its width and its presence byte, whether the value is present or not. -/
theorem length_optional {α : Type} {g : α → List Byte} {width : Nat} (x : Option α) (h : ∀ a, (g a).length = width) :
    (optional (x.map g) width).length = width + 1 := by
  cases x with
  | none => simp [optional]
  | some a => simp [optional, h]

/-! Frames -/

/-- A frame: SYNC, LEN, the body, and the two bytes of its CRC, high byte first (R138). -/
theorem frameBytes_form (body : List Byte) : ∃ hi lo : Byte,
    frameBytes body = [0xA5, byte body.length] ++ body ++ [hi, lo] ∧
      hi.toNat * 256 + lo.toNat = (crc16 (byte body.length :: body)).toNat := by
  obtain ⟨hi, lo, hbytes, hcrc⟩ := be16_form (crc16 (byte body.length :: body)).isLt
  refine ⟨hi, lo, ?_, hcrc.symm⟩
  unfold frameBytes
  simp only [hbytes]
  rfl

/-! Notice records -/

/-- The ten detail bytes of each kind, written out (R174). -/
theorem noticeBody_bytes (b : NoticeBody) :
    b.bytes =
      match b with
      | .deviation kind step measured strikes =>
        [match kind with | .early => (1 : Byte) | .late => 2 | .noSignal => 3 | .injected => 4] ++
          (match step with | some k => [1, byte k] | none => [0, 0]) ++
          (match measured with | some m => 1 :: be24 m | none => [0, 0, 0, 0]) ++ [byte strikes, 0, 0]
      | .tripChannel kind step measured strikes claims =>
        [match kind with | .early => (1 : Byte) | .late => 2 | .noSignal => 3 | .injected => 4] ++
          (match step with | some k => [1, byte k] | none => [0, 0]) ++
          (match measured with | some m => 1 :: be24 m | none => [0, 0, 0, 0]) ++ [byte strikes, byte claims, 0]
      | .tripLink limit claims => be16 limit ++ [byte claims, 0, 0, 0, 0, 0, 0, 0]
      | .mark step measured cycles => [byte step] ++ be24 measured ++ be32 cycles.toNat ++ [0, 0]
      | .started cause outcome generation armed =>
        [match cause with | .powerOn => (1 : Byte) | .resetLine => 2 | .resetRequest => 3,
         match outcome with | .none => 0 | .bankA => 1 | .bankB => 2 | .rejected => 3] ++
          (match generation with | some g => 1 :: be32 g.toNat | none => [0, 0, 0, 0, 0]) ++ [byte armed, 0, 0]
      | .store operation done generation =>
        [match operation with | .save => (1 : Byte) | .erase => 2, if done then 0 else 1] ++
          (match generation with | some g => 1 :: be32 g.toNat | none => [0, 0, 0, 0, 0]) ++ [0, 0, 0] := by
  cases b with
  | deviation kind step measured strikes =>
    rw [NoticeBody.bytes, optional_byte, optional_be24]
    cases kind <;> rfl
  | tripChannel kind step measured strikes claims =>
    rw [NoticeBody.bytes, optional_byte, optional_be24]
    cases kind <;> rfl
  | tripLink limit claims => rfl
  | mark step measured cycles => rfl
  | started cause outcome generation armed =>
    rw [NoticeBody.bytes, optional_time32]
    cases cause <;> cases outcome <;> rfl
  | store operation done generation =>
    cases operation <;> exact congrArg (_ ++ · ++ [0, 0, 0]) (optional_time32 generation)

theorem length_noticeBody (b : NoticeBody) : b.bytes.length = 10 := by
  have hstep (x : Option Nat) := length_optional (g := fun n => [byte n]) (width := 1) x fun _ => rfl
  have hmeasured (x : Option Nat) := length_optional (g := be24) (width := 3) x fun _ => rfl
  have hgeneration (x : Option Count32) := length_optional (g := time32) (width := 4) x fun _ => rfl
  cases b <;> simp [NoticeBody.bytes, hstep, hmeasured, hgeneration, be16, be24, time32, be32]

/-- The eight bytes before the details: sequence, time, source and kind (R174). -/
theorem notice_bytes (n : Notice) :
    n.bytes = be16 n.sequence.toNat ++ be32 n.time.toNat ++ [n.source.toByte, n.body.kindByte] ++ n.body.bytes := rfl

theorem length_notice (n : Notice) : n.bytes.length = 18 := by
  rw [notice_bytes, List.length_append, length_noticeBody]
  rfl

theorem noticeSource_toByte (src : NoticeSource) :
    src.toByte = match src with | .trip (.channel c) => byte c | .trip .link => 8 | .device => 9 := by
  cases src with
  | trip src => cases src <;> rfl
  | device => rfl

theorem kindByte_eq (b : NoticeBody) :
    b.kindByte = match b with
      | .deviation _ _ _ _ => 1 | .tripChannel _ _ _ _ _ => 2 | .tripLink _ _ => 2 | .mark _ _ _ => 3
      | .started _ _ _ _ => 4 | .store _ _ _ => 5 := by
  cases b <;> rfl

/-! Configurations -/

/-- The ten bytes of a configuration (R171). -/
theorem config_bytes (cfg : ChannelConfig) :
    cfg.bytes = [byte cfg.line, byte cfg.pattern, byte cfg.strikeLimit, byte cfg.forgive] ++
      (match cfg.acquire with | some n => 1 :: be24 n | none => [0, 0, 0, 0]) ++
      [byte cfg.report.toNat, if cfg.bootArmed then 1 else 0] := by
  rw [ChannelConfig.bytes, optional_be24]
  rfl

/-- Settles O19, form by form. -/
theorem frameAndRecordForm : Obligations.FrameAndRecordForm := by
  refine ⟨Tests.test_crc_check, fun body _ => frameBytes_form body, fun n => ⟨length_notice n, ?_, ?_⟩, rfl,
    getLsbD_channelSet, fun mask kind => ⟨reports_iff mask kind, reportsMark_iff mask⟩,
    ⟨fun _ => rfl, rfl, rfl, rfl, rfl, rfl, rfl, toNat_toByte_channel, rfl⟩,
    ⟨fun _ => be16_form, fun _ => be24_form, fun _ => be32_form⟩, config_bytes⟩
  · exact congrArg₂ (fun source kind => be16 n.sequence.toNat ++ be32 n.time.toNat ++ [source, kind])
      (noticeSource_toByte n.source) (kindByte_eq n.body)
  · exact (show n.bytes.drop 8 = n.body.bytes from rfl).trans (noticeBody_bytes n.body)

/-- Settles O1: with a command at the front the step is that command's. -/
theorem stepRunsTheFrontCommand : Obligations.StepRunsTheFrontCommand := by
  intro c rest s hpending
  unfold step
  rw [hpending]

end Sys2Proof.Machine

/-! The Link Interface within its capacities: its law record by record, the operations that keep it, and the room that every
reply's data has (R137, R142, R144, R147, R173). -/

namespace Sys2Proof.Machine

/-- What `LinkLaw` asks of the records of the Link Interface. -/
structure Link.Lawful (k : Link) : Prop where
  inbox : k.inbox.length ≤ 2
  places : k.replies.length ≤ 4
  sending : k.sendStart.isSome ↔ k.replies ≠ []
  fits : ∀ r ∈ k.replies, r.data.length ≤ 179
  receiver : k.receiver.Lawful
  timeout : k.timeout = 0 ∨ 10 ≤ k.timeout ∧ k.timeout ≤ 60000
  watching : ∀ due, k.source = .watching due → k.timeout ≠ 0

theorem linkLaw_iff {s : State} : s.LinkLaw ↔ s.link.Lawful := by
  have hwatching : (match s.link.source with | .watching _ => s.link.timeout ≠ 0 | _ => True) ↔
      ∀ due, s.link.source = .watching due → s.link.timeout ≠ 0 := by
    cases s.link.source with
    | watching due => exact ⟨fun h _ _ => h, fun h => h due rfl⟩
    | off => exact iff_of_true trivial nofun
    | tripped => exact iff_of_true trivial nofun
  constructor
  · rintro ⟨hinbox, hplaces, hsending, hfits, hreceiver, htimeout, hsource⟩
    exact ⟨hinbox, hplaces, hsending, hfits, hreceiver, htimeout, hwatching.1 hsource⟩
  · rintro ⟨hinbox, hplaces, hsending, hfits, hreceiver, htimeout, hsource⟩
    exact ⟨hinbox, hplaces, hsending, hfits, hreceiver, htimeout, hwatching.2 hsource⟩

variable {k : Link} {now : Time}

theorem linkLawful_atReset : Link.atReset.Lawful where
  inbox := Nat.zero_le _
  places := Nat.zero_le _
  sending := iff_of_false nofun (not_not.2 rfl)
  fits := nofun
  receiver := trivial
  timeout := .inl rfl
  watching := nofun

/-! The operations of the link -/

theorem linkLawful_withReceiver {r : Receiver} (h : k.Lawful) (hr : r.Lawful) : ({ k with receiver := r } : Link).Lawful :=
  { h with receiver := hr }

theorem linkLawful_withInbox {inbox : List Frame} (h : k.Lawful) (hi : inbox.length ≤ 2) :
    ({ k with inbox } : Link).Lawful :=
  { h with inbox := hi }

/-- The counts have no law. -/
theorem linkLawful_withCounts (errors busy : Count16) (h : k.Lawful) : ({ k with errors, busy } : Link).Lawful := { h with }

/-- LINK may watch with a timeout in range, and not 0 (R147). -/
theorem linkLawful_withSource {x : LinkState} {t : Nat} (h : k.Lawful) (ht : t = 0 ∨ 10 ≤ t ∧ t ≤ 60000)
    (hx : ∀ due, x = .watching due → t ≠ 0) : ({ k with source := x, timeout := t } : Link).Lawful :=
  { h with timeout := ht, watching := hx }

/-- A reply of no more than 179 data bytes takes a free place (R144, R173). -/
theorem linkLawful_push {r : Reply} (h : k.Lawful) (hplace : k.replies.length < 4) (hr : r.data.length ≤ 179) :
    (k.push now r).Lawful := by
  rw [push_eq]
  refine { h with places := ?_, sending := ?_, fits := fun x hx => ?_ }
  · rw [List.length_append]
    exact hplace
  · have hsending := h.sending
    split
    · simp
    · next hne => simpa [hne] using hsending
  · obtain hx | hx := List.mem_append.1 hx
    · exact h.fits x hx
    · rw [List.mem_singleton.1 hx]
      exact hr

/-- The next reply is sent when there is one (R144). -/
theorem linkLawful_pop (h : k.Lawful) : (k.pop now).Lawful := by
  refine { h with places := ?_, sending := ?_, fits := fun r hr => h.fits r (List.mem_of_mem_tail hr) }
  · show k.replies.tail.length ≤ 4
    rw [List.length_tail]
    exact Nat.le_trans (Nat.sub_le _ 1) h.places
  · show (if k.replies.tail.isEmpty then none else some now).isSome ↔ k.replies.tail ≠ []
    cases k.replies.tail <;> simp

theorem linkLawful_restart (h : k.Lawful) : (k.restart now).Lawful := by
  unfold Link.restart
  split
  · next hsource => exact linkLawful_withSource h h.timeout fun _ _ => h.watching _ hsource
  · exact h

/-- A good frame takes a free place of the inbox, or its BUSY reply a free place of the reply queue (R142). -/
theorem linkLawful_enqueue (f : Frame) (h : k.Lawful) : (k.enqueue now f).Lawful := by
  obtain hroom | hfull := Nat.lt_or_ge k.inbox.length 2
  · rw [enqueue_room k now f hroom]
    exact linkLawful_withInbox h (by rw [List.length_append]; exact hroom)
  · obtain hplace | hnone := Nat.lt_or_ge k.replies.length 4
    · rw [enqueue_busy k now f hfull hplace]
      exact linkLawful_push (linkLawful_withCounts k.errors _ h) hplace (Nat.zero_le _)
    · rw [enqueue_lost k now f hfull hnone]
      exact linkLawful_withCounts _ _ h

theorem linkLawful_goodFrame (f : Frame) (h : k.Lawful) : (k.goodFrame now f).Lawful :=
  linkLawful_enqueue f (linkLawful_restart h)

theorem linkLawful_abandon (h : k.Lawful) : k.abandon.Lawful :=
  linkLawful_withCounts _ _ (linkLawful_withReceiver (r := .hunting) h trivial)

theorem linkLawful_complete (covered : List Byte) (hi lo : Byte) (h : k.Lawful) : (k.complete now covered hi lo).Lawful := by
  unfold Link.complete
  split
  · split
    · exact linkLawful_goodFrame _ (linkLawful_withReceiver h trivial)
    · exact linkLawful_abandon h
  · exact linkLawful_abandon h

/-- A byte lengthens the frame by one byte in its own receive state, or ends it (R139). -/
theorem linkLawful_receive (b : Byte) (h : k.Lawful) : (k.receive now b).Lawful := by
  have hreceiver := h.receiver
  unfold Link.receive
  simp only
  split
  · split
    · exact linkLawful_withReceiver h trivial
    · exact h
  · split
    · next hlen => exact linkLawful_withReceiver h ⟨hlen.1, hlen.2, Nat.le_refl 1, Nat.le_of_succ_le hlen.1⟩
    · exact linkLawful_abandon h
  · next len bytes gap hbody =>
    rw [hbody] at hreceiver
    obtain ⟨hmin, hmax, hone, hfew⟩ := hreceiver
    split
    · next hlast => exact linkLawful_withReceiver h ⟨hmin, hmax, hlast, Nat.zero_le _⟩
    · next hmore =>
      rw [List.length_append, List.length_singleton] at hmore
      refine linkLawful_withReceiver h ⟨hmin, hmax, ?_, ?_⟩
      · rw [List.length_append, List.length_singleton]; omega
      · rw [List.length_append, List.length_singleton]; omega
  · exact linkLawful_complete _ _ _ h
  · next len bytes cs gap hnone hcheck =>
    rw [hcheck] at hreceiver
    obtain ⟨hmin, hmax, hall, hfew⟩ := hreceiver
    refine linkLawful_withReceiver h ⟨hmin, hmax, hall, ?_⟩
    match cs, hfew with
    | [], _ => exact Nat.le_refl 1
    | [hi], _ => exact (hnone hi rfl).elim

/-- SET_LINK's timeout is in range, and LINK watches only with a timeout above 0 (R149). -/
theorem linkLawful_setTimeout {t : Nat} (ht : t = 0 ∨ 10 ≤ t ∧ t ≤ 60000) (h : k.Lawful) : (k.setTimeout now t).Lawful := by
  refine linkLawful_withSource h ht fun due hdue => ?_
  split at hdue
  · cases hdue
  · split at hdue
    · cases hdue
    · assumption

/-- LINK watches, or is OFF with a timeout of 0 (R150, R151). -/
theorem linkLawful_watchFromNow (h : k.Lawful) :
    ({ k with source := if k.timeout = 0 then .off else .watching (after now (k.timeout * 1000)) } : Link).Lawful := by
  refine linkLawful_withSource h h.timeout fun due hdue => ?_
  split at hdue
  · cases hdue
  · assumption

/-! The data of the replies -/

/-- The lists that replies carry are no longer than their tables: a pattern's steps, an observed table, a claim list. -/
structure State.DataBounded (s : State) : Prop where
  steps : ∀ (id : Fin 16) (p : Pattern), s.patterns[id] = some p → p.steps.length ≤ 16
  observed : ∀ c : Fin 8, s.channels[c].observed.length ≤ 16
  claims : ∀ o : Fin 6, s.claims[o].length ≤ 32

variable {s t : State}

theorem dataBounded_of_lawful (hl : s.Lawful) : s.DataBounded := by
  obtain ⟨hpatterns, -⟩ := hl.patterns
  have hsteps (id : Fin 16) (p : Pattern) (hp : s.patterns[id] = some p) : p.steps.length ≤ 16 := by
    obtain ⟨-, -, hmost, -⟩ := hpatterns id p hp
    exact hmost
  refine ⟨hsteps, fun c => ?_, fun o => ?_⟩
  · have hlaw := hl.channels c
    unfold State.ChannelLawAt at hlaw
    split at hlaw
    · obtain ⟨-, -, -, hnone⟩ := hlaw
      rw [hnone]
      exact Nat.zero_le _
    · obtain ⟨-, -, hpattern⟩ := hlaw
      split at hpattern
      · exact hpattern.elim
      · next p hp =>
        rw [hpattern.1]
        exact hsteps _ p hp
  · obtain ⟨-, -, hnodup⟩ := hl.claims
    simpa using (hnodup o).length_le_card

theorem length_flatMap_of_const {α : Type} {n : Nat} {g : α → List Byte} (l : List α) (h : ∀ a, (g a).length = n) :
    (l.flatMap g).length = n * l.length := by
  rw [List.length_flatMap, funext h, List.map_const', List.sum_replicate, smul_eq_mul, Nat.mul_comm]

theorem length_bankBytes (b : Bank) : b.bytes.length = 5 := by
  unfold Bank.bytes
  split
  · rfl
  · rfl

theorem length_patternStep (p : PatternStep) : p.bytes.length = 7 := rfl

theorem length_observedEntry (e : ObservedEntry) : e.bytes.length = 8 := rfl

theorem length_claim (c : Claim) : c.bytes.length = 5 := rfl

theorem length_config (cfg : ChannelConfig) : cfg.bytes.length = 10 := by
  rw [config_bytes]
  cases cfg.acquire <;> rfl

theorem length_deviationBytes (d : Option Deviation) : (deviationBytes d).length = 12 := by
  rw [deviationBytes_eq]
  cases d with
  | none => rfl
  | some d =>
    obtain ⟨kind, step, measured, time⟩ := d
    cases step <;> cases measured <;> rfl

theorem length_positionBytes (x : ChannelState) : x.positionBytes.length = 13 := by
  cases x with
  | seeking expiry => cases expiry <;> rfl
  | _ => rfl

theorem length_time32 (x : BitVec 32) : (time32 x).length = 4 := rfl

theorem length_count16 (x : Count16) : (count16 x).length = 2 := rfl

theorem length_be16 (n : Nat) : (be16 n).length = 2 := rfl

theorem length_statusData (s : State) : s.statusData.length = 26 := by
  simp only [State.statusData, List.length_append, List.length_cons, List.length_nil, length_bankBytes, length_time32,
    length_count16, length_be16]

theorem length_lineData (s : State) (l : Fin 8) : (s.lineData l).length = 21 := by
  simp only [State.lineData, List.length_append, List.length_cons, List.length_nil, length_time32, length_count16,
    length_be16, length_optional _ length_time32]

theorem length_channelData (s : State) (c : Fin 8) : (s.channelData c).length = 56 := by
  rw [channelData_eq, ← deviationBytes_eq]
  simp only [List.length_append, List.length_cons, List.length_nil, length_time32, length_count16, length_positionBytes,
    length_deviationBytes, length_optional _ length_config]

theorem length_reactionData (s : State) (i : Fin 32) : (s.reactionData i).length = 12 := by
  have hflag (pos : Option Nat) (g : Nat → Byte) := length_optional (g := fun p => [g p]) (width := 1) pos fun _ => rfl
  unfold State.reactionData
  split
  · rfl
  · simp only [List.length_append, List.length_cons, List.length_nil, Drive.bytes, length_be16, hflag]

theorem length_outputData (s : State) (o : Fin 6) : (s.outputData o).length = 19 + 5 * s.claims[o].length := by
  simp only [State.outputData, List.length_append, List.length_cons, List.length_nil, Drive.bytes, length_be16,
    length_time32, length_optional _ length_time32, length_flatMap_of_const _ length_claim]

end Sys2Proof.Machine

/-! The Link Interface through requests, events and time: every step keeps its law (R137, R142, R144, R147, R173). -/

namespace Sys2Proof.Machine

variable {s t : State}

/-! Requests -/

/-- The reply of an answer fits the largest LEN, and its effect leaves the link `k` lawful and its replies as they are. -/
def Answer.Fits (k : Link) : Answer → Prop
  | .refuse _ => True
  | .ok data t => data.length ≤ 179 ∧ t.link.Lawful ∧ t.link.replies = k.replies
  | .okThenReset t => t.link.Lawful ∧ t.link.replies = k.replies

/-- The reply of an answer finds a free place when the executor may take a frame (R143, R144). -/
theorem linkLawful_answer (tag : Byte) {a : Answer} (hs : s.link.Lawful) (hplace : s.link.replies.length < 4)
    (h : a.Fits s.link) : (s.answer tag a).link.Lawful := by
  cases a with
  | refuse status => exact linkLawful_push hs hplace (Nat.zero_le _)
  | ok data u =>
    obtain ⟨hdata, hu, hsame⟩ := h
    exact linkLawful_push hu (by rw [hsame]; exact hplace) hdata
  | okThenReset u =>
    obtain ⟨hu, hsame⟩ := h
    exact linkLawful_push hu (by rw [hsame]; exact hplace) (Nat.zero_le _)

/-- A request keeps the law of the link when the reply of what the executor carries out fits. -/
theorem linkLawful_request (f : Frame) {carryOut : State → Answer} (hb : s.DataBounded) (hs : s.link.Lawful)
    (h : ∀ u : State, u.DataBounded → u.link.Lawful → (carryOut u).Fits u.link) :
    (s.request f carryOut).link.Lawful := by
  obtain ⟨-, he⟩ | ⟨-, l, hl, hcase⟩ := request_cases s f carryOut
  · rw [he]; exact hs
  · have hlink : l.Lawful := by
      obtain ⟨-, rfl⟩ | ⟨-, rfl⟩ := hl
      · exact hs
      · exact linkLawful_goodFrame f hs
    obtain he | ⟨rest, hfront, hready, he⟩ := hcase
    · rw [he]; exact hlink
    · obtain ⟨hplace, -⟩ := (executorReady_iff l).1 hready
      have hrest : rest.length ≤ 2 := by
        have hinbox := hlink.inbox
        rw [hfront] at hinbox
        exact Nat.le_of_succ_le hinbox
      have htaken : ({ l with inbox := rest } : Link).Lawful := linkLawful_withInbox hlink hrest
      rw [he]
      exact linkLawful_answer (s := { s with link := { l with inbox := rest } }) f.tag htaken hplace
        (h _ ⟨hb.steps, hb.observed, hb.claims⟩ htaken)

theorem fits_whenRunning {k : Link} {a : Answer} (h : a.Fits k) : (whenRunning s a).Fits k := by
  unfold whenRunning
  split
  · exact h
  · trivial

theorem fits_noParams {k : Link} (params : List Byte) {a : Answer} (h : a.Fits k) : (noParams params a).Fits k := by
  unfold noParams
  split
  · exact h
  · trivial

theorem fits_oneParam {k : Link} {α : Type} (params : List Byte) {parse : Byte → Option α} {answer : α → Answer}
    (h : ∀ x, (answer x).Fits k) : (oneParam params s parse answer).Fits k := by
  unfold oneParam
  split
  · split
    · exact fits_whenRunning (h _)
    · trivial
  · trivial

/-- An effect that leaves the link, with a reply that fits. -/
theorem fits_ok {data : List Byte} (hs : s.link.Lawful) (hdata : data.length ≤ 179) (hlink : t.link = s.link) :
    (Answer.ok data t).Fits s.link :=
  ⟨hdata, hlink ▸ hs, congrArg Link.replies hlink⟩

/-- The Channel Engine leaves the link. -/
theorem link_of_supervises (h : s.Supervises t) : t.link = s.link := by
  induction h with
  | refl => rfl
  | line l x _ ih => exact ih
  | record hx _ ih => exact ih
  | deviation dev hk _ ih => exact (turn_handleDeviation _ _ dev).link.trans ih
  | mark now c k d cycles _ ih => exact ih
  | choose n _ ih => exact ih

theorem link_disarm (s : State) (c : Fin 8) : (s.disarm c).link = s.link := by
  unfold State.disarm
  split
  · rfl
  · simp only
    split
    · rfl
    · rfl

theorem link_definePattern (s : State) (id : Fin 16) (p : Pattern) : (s.definePattern id p).link = s.link := by
  rw [definePattern_rest]

variable (params : List Byte) (hs : s.link.Lawful)
include hs

theorem fits_configureChannelAnswer : (configureChannelAnswer params s).Fits s.link := by
  unfold configureChannelAnswer
  split
  · split
    · refine fits_whenRunning ?_
      split
      · trivial
      · split
        · trivial
        · exact fits_ok hs (by simp) rfl
    · trivial
  · trivial

theorem fits_clearChannelAnswer : (clearChannelAnswer params s).Fits s.link := by
  refine fits_oneParam params fun c => ?_
  split
  · trivial
  · split
    · trivial
    · exact fits_ok hs (by simp) rfl

theorem fits_armAnswer : (armAnswer params s).Fits s.link := by
  refine fits_oneParam params fun c => ?_
  split
  · trivial
  · split
    · trivial
    · split
      · trivial
      · exact fits_ok hs (by simp) rfl

theorem fits_disarmAnswer : (disarmAnswer params s).Fits s.link :=
  fits_oneParam params fun c => fits_ok hs (by simp) (link_disarm s c)

theorem fits_pauseAnswer : (pauseAnswer params s).Fits s.link := by
  refine fits_oneParam params fun c => ?_
  split
  · exact fits_ok hs (by simp) rfl
  · trivial

theorem fits_resumeAnswer : (resumeAnswer params s).Fits s.link := by
  refine fits_oneParam params fun c => ?_
  split
  · exact fits_ok hs (by simp) rfl
  · trivial

theorem fits_injectAnswer : (injectAnswer params s).Fits s.link := by
  refine fits_oneParam params fun c => ?_
  split
  · exact fits_ok hs (by simp) (turn_handleDeviation s c _).link
  · trivial

/-- REARM of LINK leaves it watching, or OFF (R150). -/
theorem fits_rearmAnswer : (rearmAnswer params s).Fits s.link := by
  refine fits_oneParam params fun src => ?_
  split
  · trivial
  · split
    · trivial
    · cases src with
      | channel c => exact fits_ok hs (by simp) rfl
      | link => exact ⟨by simp, linkLawful_watchFromNow hs, rfl⟩

theorem fits_clearObservedAnswer : (clearObservedAnswer params s).Fits s.link := by
  refine fits_oneParam params fun c => ?_
  split
  · trivial
  · exact fits_ok hs (by simp) rfl

/-- READ_OBSERVED: three bytes, and eight for each of at most sixteen entries. -/
theorem fits_readObservedAnswer (hb : s.DataBounded) : (readObservedAnswer params s).Fits s.link := by
  refine fits_oneParam params fun c => ?_
  split
  · trivial
  · have hentries := hb.observed c
    refine fits_ok hs ?_ rfl
    simp only [List.length_append, List.length_cons, List.length_nil, length_flatMap_of_const _ length_observedEntry]
    omega

theorem fits_definePatternAnswer : (definePatternAnswer params s).Fits s.link := by
  unfold definePatternAnswer
  split
  · split
    · trivial
    · split
      · split
        · refine fits_whenRunning ?_
          split
          · trivial
          · split
            · trivial
            · exact fits_ok hs (by simp) (link_definePattern s _ _)
        · trivial
      · trivial
  · trivial

theorem fits_deletePatternAnswer : (deletePatternAnswer params s).Fits s.link := by
  refine fits_oneParam params fun id => ?_
  split
  · trivial
  · split
    · trivial
    · exact fits_ok hs (by simp) rfl

/-- READ_PATTERN: five bytes, and seven for each of at most sixteen steps. -/
theorem fits_readPatternAnswer (hb : s.DataBounded) : (readPatternAnswer params s).Fits s.link := by
  refine fits_oneParam params fun id => ?_
  split
  · trivial
  · next p hp =>
    have hsteps := hb.steps id p hp
    refine fits_ok hs ?_ rfl
    simp only [List.length_append, List.length_cons, List.length_nil, length_flatMap_of_const _ length_patternStep]
    omega

/-- FETCH: four bytes, and eighteen for each of at most eight notices. -/
theorem fits_fetchAnswer : (fetchAnswer params s).Fits s.link := by
  unfold fetchAnswer oneParam
  split
  · split
    · next n hn =>
      have hmost : n ≤ 8 := by
        unfold fetchCountOf at hn
        split at hn
        · next hrange =>
          cases hn
          exact hrange.2
        · cases hn
      refine fits_whenRunning (fits_ok hs ?_ rfl)
      have htaken : (s.queue.notices.take n).length ≤ 8 := Nat.le_trans (List.length_take_le _ _) hmost
      simp only [List.length_append, List.length_cons, List.length_nil, length_count16,
        length_flatMap_of_const _ length_notice]
      omega
    · trivial
  · trivial

theorem fits_setLineAnswer : (setLineAnswer params s).Fits s.link := by
  unfold setLineAnswer
  split
  · split
    · split
      · refine fits_whenRunning (fits_ok hs ?_ (link_of_supervises (supervises_setFilter s _ _ _)))
        simp only [List.length_append, List.length_cons, List.length_nil, length_be16, length_count16, length_time32]
        decide
      · trivial
    · trivial
  · trivial

theorem fits_setLinkAnswer : (setLinkAnswer params s).Fits s.link := by
  unfold setLinkAnswer
  split
  · split
    · next hrange =>
      refine fits_whenRunning ⟨?_, linkLawful_setTimeout hrange hs, rfl⟩
      simp only [List.length_append, List.length_cons, List.length_nil, length_be16]
      decide
    · trivial
  · trivial

theorem fits_savePlanAnswer : (savePlanAnswer params s).Fits s.link := by
  refine fits_noParams params (fits_whenRunning ?_)
  split
  · trivial
  · split
    · trivial
    · refine fits_ok hs ?_ rfl
      simp only [List.length_append, List.length_cons, List.length_nil, length_time32]
      decide

theorem fits_erasePlanAnswer : (erasePlanAnswer params s).Fits s.link := by
  refine fits_noParams params (fits_whenRunning ?_)
  split
  · trivial
  · exact fits_ok hs (by simp) rfl

theorem fits_setReactionAnswer : (setReactionAnswer params s).Fits s.link := by
  unfold setReactionAnswer
  split
  · split
    · refine fits_whenRunning ?_
      split
      · trivial
      · split
        · trivial
        · exact fits_ok hs (by simp) rfl
    · trivial
  · trivial

theorem fits_setOutputAnswer : (setOutputAnswer params s).Fits s.link := by
  have hend (awaited : Prop) [Decidable awaited] (due : Option Time) :
      (optional (if awaited then due.map time32 else none) 4).length = 5 := by
    split
    · exact length_optional due length_time32
    · rfl
  unfold setOutputAnswer
  split
  · split
    · next o base rate _ _ _ =>
      refine fits_whenRunning ?_
      generalize s.outputs[o].setBase s.time (!s.claims[o].isEmpty) base rate = change
      refine fits_ok hs ?_ rfl
      simp only [List.length_append, List.length_cons, List.length_nil, hend]
      decide
    · trivial
  · trivial

omit hs

/-! Events -/

theorem linkLawful_byteArrival {b : Byte} (hs : s.link.Lawful) (h : execByteArrival b s = .next t) : t.link.Lawful := by
  obtain rfl := Host.Outcome.next.inj h
  split
  · exact hs
  · exact linkLawful_receive b hs

theorem linkLawful_framingFault (hs : s.link.Lawful) (h : execFramingFault s = .next t) : t.link.Lawful := by
  obtain rfl := Host.Outcome.next.inj h
  split
  · exact hs
  · split
    · exact hs
    · exact linkLawful_abandon hs

theorem linkLawful_gapExpiry (hs : s.link.Lawful) (h : execGapExpiry s = .next t) : t.link.Lawful := by
  obtain rfl := Host.Outcome.next.inj h
  split
  · split
    · exact linkLawful_abandon hs
    · exact hs
  · exact hs

/-- The end of an accepted RESET's reply begins and ends a reset; any other reply leaves the next one to be sent (R131, R144). -/
theorem linkLawful_replySent (hs : s.link.Lawful) (h : execReplySent s = .next t) : t.link.Lawful := by
  obtain rfl := Host.Outcome.next.inj h
  split
  · split
    · split
      · exact linkLawful_atReset
      · exact linkLawful_pop hs
    · exact hs
  · exact hs

/-- LINK trips and no longer watches (R148). -/
theorem linkLawful_silenceExpiry (hs : s.link.Lawful) (h : execSilenceExpiry s = .next t) : t.link.Lawful := by
  obtain rfl := Host.Outcome.next.inj h
  split
  · split
    · exact linkLawful_withSource (x := .tripped) hs hs.timeout nofun
    · exact hs
  · exact hs

/-! What leaves the link -/

theorem link_frameEndExpiry {o : Fin 6} (h : execFrameEndExpiry o s = .next t) : t.link = s.link := by
  obtain rfl := Host.Outcome.next.inj h
  split
  · split
    · rfl
    · rfl
  · rfl

theorem link_saveCompletion {matched : Bool} (h : execSaveCompletion matched s = .next t) : t.link = s.link := by
  obtain rfl := Host.Outcome.next.inj h
  split
  · split
    · rfl
    · rfl
  · rfl

theorem link_secondBankInvalidation (h : execSecondBankInvalidation s = .next t) : t.link = s.link := by
  obtain rfl := Host.Outcome.next.inj h
  split
  · split
    · rfl
    · rfl
  · rfl

theorem link_eraseCompletion (h : execEraseCompletion s = .next t) : t.link = s.link := by
  obtain rfl := Host.Outcome.next.inj h
  split
  · split
    · rfl
    · rfl
  · rfl

theorem link_resetEnd (h : execResetEnd s = .next t) : t.link = s.link := by
  obtain rfl := Host.Outcome.next.inj h
  split
  · rfl
  · rfl

/-! The load and time -/

/-- An accepted image has its timeout in range (R134). -/
theorem accepted_timeout {img : Image} (h : img.accepted = true) :
    img.timeout = 0 ∨ 10 ≤ img.timeout ∧ img.timeout ≤ 60000 := by
  simp only [Image.accepted, Bool.and_eq_true, Bool.or_eq_true, decide_eq_true_eq] at h
  obtain ⟨⟨-, htimeout⟩, -⟩ := h
  exact htimeout

/-- The load writes the timeout in STARTING, when LINK is OFF (R135, R151). -/
theorem linkLawful_loadPlan {img : Image} (hs : s.link.Lawful) (hoff : s.link.source = .off) (hacc : img.accepted = true) :
    (s.loadPlan img).link.Lawful :=
  linkLawful_withSource hs (accepted_timeout hacc) fun due hdue => by rw [hoff] at hdue; cases hdue

theorem off_of_starting (hl : s.Lawful) (hd : s.device = .starting) : s.link.source = .off :=
  ((dormant_of_lawful hl).asleep (by rw [hd]; nofun)).link

/-- At RUNNING entry LINK watches, or is OFF with a timeout of 0 (R151). -/
theorem linkLawful_planLoadEnd (hl : s.Lawful) (h : execPlanLoadEnd s = .next t) : t.link.Lawful := by
  have hs := linkLaw_iff.1 hl.link
  obtain rfl := Host.Outcome.next.inj h
  split
  · next hd =>
    show (State.enterRunning (s.loadPlan s.store.selectPlan.1) _ _).link.Lawful
    rw [enterRunning_rest]
    exact linkLawful_watchFromNow (linkLawful_loadPlan hs (off_of_starting hl hd) (accepted_selectPlan s.store))
  · exact hs

theorem link_tick (s : State) : s.tick.link = s.link := by
  unfold State.tick
  split
  · rfl
  · rfl

/-- A microsecond passes, or the plan is written in STARTING. -/
theorem linkLawful_pass (hl : s.Lawful) : s.pass.link.Lawful := by
  have hs := linkLaw_iff.1 hl.link
  by_cases hplan : s.device = .starting ∧ s.planWritten = false
  · obtain ⟨hd, hp⟩ := hplan
    rw [pass_of_unwritten hd hp]
    split
    · exact linkLawful_loadPlan (s := s.drawn) hs (off_of_starting (s := s) hl hd) (accepted_selectPlan s.store)
    · rw [link_tick]; exact hs
  · rw [pass_of_written hplan, link_tick]
    exact hs

/-! Commands and steps -/

theorem linkLawful_of_request {f : Frame} {carryOut : State → Answer} (hl : s.Lawful)
    (h : Host.Outcome.next (s.request f carryOut) = (.next t : Host.Outcome State Fault Refusal))
    (hk : ∀ u : State, u.DataBounded → u.link.Lawful → (carryOut u).Fits u.link) : t.link.Lawful := by
  obtain rfl := Host.Outcome.next.inj h
  exact linkLawful_request f (dataBounded_of_lawful hl) (linkLaw_iff.1 hl.link) hk

theorem linkLawful_unknownRequestCode {tag code : Byte} (hl : s.Lawful)
    (h : execUnknownRequestCode tag code params s = .next t) : t.link.Lawful := by
  unfold execUnknownRequestCode at h
  split at h
  · obtain rfl := Host.Outcome.next.inj h
    exact linkLaw_iff.1 hl.link
  · exact linkLawful_of_request hl h fun _ _ _ => trivial

/-- Every command keeps the law of the Link Interface. -/
theorem linkLawful_exec (i : Instr) (hl : s.Lawful) (h : exec i s = .next t) : t.link.Lawful := by
  have hs := linkLaw_iff.1 hl.link
  have hkept (hsame : t.link = s.link) : t.link.Lawful := hsame ▸ hs
  cases i with
  | arm tag params => exact linkLawful_of_request hl h fun _ _ => fits_armAnswer params
  | clearChannel tag params => exact linkLawful_of_request hl h fun _ _ => fits_clearChannelAnswer params
  | clearObserved tag params => exact linkLawful_of_request hl h fun _ _ => fits_clearObservedAnswer params
  | configureChannel tag params => exact linkLawful_of_request hl h fun _ _ => fits_configureChannelAnswer params
  | definePattern tag params => exact linkLawful_of_request hl h fun _ _ => fits_definePatternAnswer params
  | deletePattern tag params => exact linkLawful_of_request hl h fun _ _ => fits_deletePatternAnswer params
  | disarm tag params => exact linkLawful_of_request hl h fun _ _ => fits_disarmAnswer params
  | erasePlan tag params => exact linkLawful_of_request hl h fun _ _ => fits_erasePlanAnswer params
  | fetch tag params => exact linkLawful_of_request hl h fun _ _ => fits_fetchAnswer params
  | identify tag params =>
    exact linkLawful_of_request hl h fun _ _ hu => fits_noParams params (fits_ok hu (by decide) rfl)
  | inject tag params => exact linkLawful_of_request hl h fun _ _ => fits_injectAnswer params
  | pause tag params => exact linkLawful_of_request hl h fun _ _ => fits_pauseAnswer params
  | readChannel tag params =>
    exact linkLawful_of_request hl h fun u _ hu => fits_oneParam params fun c =>
      fits_ok hu (by rw [length_channelData]; decide) rfl
  | readLine tag params =>
    exact linkLawful_of_request hl h fun u _ hu => fits_oneParam params fun l =>
      fits_ok hu (by rw [length_lineData]; decide) rfl
  | readObserved tag params => exact linkLawful_of_request hl h fun _ hb hu => fits_readObservedAnswer params hu hb
  | readOutput tag params =>
    refine linkLawful_of_request hl h fun u hb hu => fits_oneParam params fun o => fits_ok hu ?_ rfl
    have hclaims := hb.claims o
    rw [length_outputData]
    omega
  | readPattern tag params => exact linkLawful_of_request hl h fun _ hb hu => fits_readPatternAnswer params hu hb
  | readReaction tag params =>
    exact linkLawful_of_request hl h fun u _ hu => fits_oneParam params fun i =>
      fits_ok hu (by rw [length_reactionData]; decide) rfl
  | rearm tag params => exact linkLawful_of_request hl h fun _ _ => fits_rearmAnswer params
  | resetRequest tag params =>
    exact linkLawful_of_request hl h fun _ _ hu => fits_noParams params (fits_whenRunning ⟨hu, rfl⟩)
  | resume tag params => exact linkLawful_of_request hl h fun _ _ => fits_resumeAnswer params
  | savePlan tag params => exact linkLawful_of_request hl h fun _ _ => fits_savePlanAnswer params
  | setAttention tag params =>
    exact linkLawful_of_request hl h fun _ _ hu => fits_oneParam params fun _ => fits_ok hu (by simp) rfl
  | setLine tag params => exact linkLawful_of_request hl h fun _ _ => fits_setLineAnswer params
  | setLink tag params => exact linkLawful_of_request hl h fun _ _ => fits_setLinkAnswer params
  | setOutput tag params => exact linkLawful_of_request hl h fun _ _ => fits_setOutputAnswer params
  | setReaction tag params => exact linkLawful_of_request hl h fun _ _ => fits_setReactionAnswer params
  | status tag params =>
    exact linkLawful_of_request hl h fun u _ hu => fits_noParams params
      (fits_ok hu (by rw [length_statusData]; decide) rfl)
  | rawChange l level => exact hkept (link_of_supervises (supervises_rawChange h))
  | qualificationExpiry l => exact hkept (link_of_supervises (supervises_qualificationExpiry h))
  | stepDeadline c =>
    obtain rfl := Host.Outcome.next.inj h
    exact hkept (turn_deliverDeadline s c).link
  | acquireExpiry c => exact hkept (link_of_supervises (supervises_acquireExpiry h))
  | frameEndExpiry o => exact hkept (link_frameEndExpiry h)
  | saveCompletion matched => exact hkept (link_saveCompletion h)
  | secondBankInvalidation => exact hkept (link_secondBankInvalidation h)
  | eraseCompletion => exact hkept (link_eraseCompletion h)
  | powerOn =>
    obtain rfl := Host.Outcome.next.inj h
    exact linkLawful_atReset
  | resetLine =>
    obtain rfl := Host.Outcome.next.inj h
    exact linkLawful_atReset
  | resetEnd => exact hkept (link_resetEnd h)
  | planLoadEnd => exact linkLawful_planLoadEnd hl h
  | byteArrival b => exact linkLawful_byteArrival hs h
  | framingFault => exact linkLawful_framingFault hs h
  | gapExpiry => exact linkLawful_gapExpiry hs h
  | replySent => exact linkLawful_replySent hs h
  | silenceExpiry => exact linkLawful_silenceExpiry hs h
  | unknownRequestCode tag code params => exact linkLawful_unknownRequestCode params hl h

/-- Settles O14, from the law of the link's records, which every command and the passing of time keep. -/
theorem linkLawKept : Obligations.LinkLawKept := by
  intro s t hl h
  refine linkLaw_iff.2 ?_
  obtain ⟨i, pending, draws, h⟩ | rfl := step_cases h
  · exact linkLawful_exec i (lawful_with_pending_draws hl pending draws) h
  · exact linkLawful_pass hl

end Sys2Proof.Machine

/-! The receiver: what a byte, a framing fault and the gap expiry do in each receive state, and how the bytes of a frame become
the frame (R137 to R142). -/

namespace Sys2Proof.Machine

variable {k : Link} {s : State} {now gap : Time} {len : Nat} {bytes : List Byte} {b : Byte}

/-! A byte in each receive state (R139) -/

theorem receive_hunting (h : k.receiver = .hunting) :
    k.receive now b = if b = 0xA5 then { k with receiver := .length (after now 2001) } else k := by
  unfold Link.receive
  rw [h]

theorem receive_length (h : k.receiver = .length gap) :
    k.receive now b =
      if 2 ≤ b.toNat ∧ b.toNat ≤ 250 then { k with receiver := .body b.toNat [b] (after now 2001) } else k.abandon := by
  unfold Link.receive
  rw [h]

theorem receive_body (h : k.receiver = .body len bytes gap) :
    k.receive now b =
      { k with receiver :=
          if bytes.length = len then .check len (bytes ++ [b]) [] (after now 2001)
          else .body len (bytes ++ [b]) (after now 2001) } := by
  unfold Link.receive
  rw [h]
  simp only [List.length_append, List.length_singleton, Nat.add_right_cancel_iff]
  split <;> rfl

theorem receive_firstCheck (h : k.receiver = .check len bytes [] gap) :
    k.receive now b = { k with receiver := .check len bytes [b] (after now 2001) } := by
  unfold Link.receive
  rw [h]
  rfl

theorem receive_secondCheck {hi : Byte} (h : k.receiver = .check len bytes [hi] gap) :
    k.receive now b = k.complete now bytes hi b := by
  unfold Link.receive
  rw [h]

/-! The second check byte (R141) -/

theorem crc_matches_iff (covered : List Byte) (hi lo : Byte) :
    crc16 covered = BitVec.ofNat 16 (nat16 hi lo) ↔ (crc16 covered).toNat = hi.toNat * 256 + lo.toNat := by
  have hhi : hi.toNat < 256 := hi.isLt
  have hlo : lo.toNat < 256 := lo.isLt
  rw [← BitVec.toNat_inj, BitVec.toNat_ofNat, Nat.mod_eq_of_lt (by unfold nat16; omega), nat16]

theorem complete_bad {covered : List Byte} {hi lo : Byte} (h : (crc16 covered).toNat ≠ hi.toNat * 256 + lo.toNat) :
    k.complete now covered hi lo = k.abandon :=
  if_neg fun hcrc => h ((crc_matches_iff covered hi lo).1 hcrc)

theorem complete_good {n tag code hi lo : Byte} {params : List Byte}
    (h : (crc16 (n :: tag :: code :: params)).toNat = hi.toNat * 256 + lo.toNat) :
    k.complete now (n :: tag :: code :: params) hi lo =
      { k with receiver := .hunting }.goodFrame now { tag, code, params } :=
  if_pos ((crc_matches_iff _ hi lo).2 h)

/-! The events of the receiver -/

/-- Outside RESET a byte is the link's (R137). -/
theorem byteArrival_of_not_reset (hd : s.device ≠ .reset) :
    exec (.byteArrival b) s = .next { s with link := s.link.receive s.time b } :=
  congrArg Host.Outcome.next (if_neg hd)

theorem byteArrival_of_reset (hd : s.device = .reset) : exec (.byteArrival b) s = .next s :=
  congrArg Host.Outcome.next (if_pos hd)

theorem framingFault_in_frame (hd : s.device ≠ .reset) (h : s.link.receiver ≠ .hunting) :
    exec .framingFault s = .next { s with link := s.link.abandon } := by
  show execFramingFault s = _
  unfold execFramingFault
  rw [if_neg hd]
  split
  · next hhunting => exact absurd hhunting h
  · rfl

theorem framingFault_hunting (h : s.link.receiver = .hunting) : exec .framingFault s = .next s := by
  show execFramingFault s = _
  unfold execFramingFault
  rw [h]
  exact congrArg Host.Outcome.next (ite_self s)

theorem gapExpiry_hunting (h : s.link.receiver = .hunting) : exec .gapExpiry s = .next s := by
  show execGapExpiry s = _
  unfold execGapExpiry
  rw [h]
  rfl

theorem gapExpiry_held {due : Time} (h : s.link.receiver.gap = some due) :
    exec .gapExpiry s = .next (if reached s.time due then { s with link := s.link.abandon } else s) := by
  show execGapExpiry s = _
  unfold execGapExpiry
  rw [h]

/-- Settles O16: each receive state with its byte, and the two ways in which a frame is abandoned. -/
theorem theReceiverFollowsItsState : Obligations.TheReceiverFollowsItsState := by
  refine ⟨fun b s => ⟨byteArrival_of_reset, fun hd => ?_⟩, fun s => ⟨framingFault_in_frame,
    fun h => ⟨framingFault_hunting h, gapExpiry_hunting h⟩, fun due h => ?_⟩⟩
  · rw [byteArrival_of_not_reset hd]
    refine ⟨fun h => ?_, fun gap h => ?_, fun len bytes gap h => ?_, fun len bytes gap h => ?_⟩
    · rw [receive_hunting h]
      split <;> rfl
    · rw [receive_length h]
      rfl
    · rw [receive_body h]
    · rw [receive_firstCheck h]
  · rw [gapExpiry_held h]
    exact ⟨fun hr => congrArg Host.Outcome.next (if_pos hr),
      fun hr => congrArg Host.Outcome.next (if_neg (by rw [hr]; exact Bool.false_ne_true))⟩

/-- Settles O17: the two CRCs, and for a good frame the room in the inbox and in the reply queue. -/
theorem theSecondCheckByteCompletesTheFrame : Obligations.TheSecondCheckByteCompletesTheFrame := by
  intro s len n tag code hi lo params gap hd hcheck
  rw [byteArrival_of_not_reset hd, receive_secondCheck hcheck]
  refine ⟨fun hbad => by rw [complete_bad hbad]; rfl, fun hgood => ?_⟩
  rw [complete_good hgood]
  have hlink {j : Link} (h : { s.link with receiver := .hunting }.goodFrame s.time ⟨tag, code, params⟩ = j) :
      (.next { s with link := { s.link with receiver := .hunting }.goodFrame s.time ⟨tag, code, params⟩ } :
        Host.Outcome State Fault Refusal) = .next { s with link := j } := by rw [h]
  exact ⟨fun hroom => hlink (goodFrame_room _ s.time hroom), fun hfull hplace => hlink (goodFrame_busy _ s.time hfull hplace),
    fun hfull hnone => hlink (goodFrame_lost _ s.time hfull hnone)⟩

/-! The bytes of a frame, one after another -/

/-- Bytes arrive one after another at one device time. -/
def Link.receiveAll (k : Link) (now : Time) (bs : List Byte) : Link := bs.foldl (fun j b => j.receive now b) k

theorem receiveAll_nil (k : Link) (now : Time) : k.receiveAll now [] = k := rfl

theorem receiveAll_cons (k : Link) (now : Time) (b : Byte) (bs : List Byte) :
    k.receiveAll now (b :: bs) = (k.receive now b).receiveAll now bs := rfl

theorem receiveAll_append (k : Link) (now : Time) (bs cs : List Byte) :
    k.receiveAll now (bs ++ cs) = (k.receiveAll now bs).receiveAll now cs := List.foldl_append

theorem run_of_step {M : Host.Core} {n : Nat} {u v : M.State} (h : M.step u = .next v) : M.run (n + 1) u = M.run n v := by
  rw [Host.Core.run.eq_2, h]

/-- As many steps as bytes wait have the link receive them all; time stands (log 1). -/
theorem run_byteArrivals (bs : List Byte) (s : State) (hd : s.device ≠ .reset)
    (hpending : s.pending = bs.map Instr.byteArrival) :
    (core.run bs.length s : Host.Outcome State Fault Refusal) =
      .next { s with pending := [], link := s.link.receiveAll s.time bs } := by
  induction bs generalizing s with
  | nil =>
    have hempty : s.pending = [] := hpending
    rw [receiveAll_nil, ← hempty]
    rfl
  | cons b bs ih =>
    have hstep := (stepRunsTheFrontCommand (.byteArrival b) _ s hpending).trans
      (byteArrival_of_not_reset (s := { s with pending := bs.map Instr.byteArrival }) hd)
    exact (run_of_step (M := core) hstep).trans
      (ih { s with pending := bs.map Instr.byteArrival, link := s.link.receive s.time b } hd rfl)

/-- The last bytes of the body bring the receiver to CHECK with all of them. -/
theorem receiveAll_body (bs : List Byte) (hne : bs ≠ []) (h : k.receiver = .body len bytes gap)
    (hlen : bytes.length + bs.length = len + 1) :
    k.receiveAll now bs = { k with receiver := .check len (bytes ++ bs) [] (after now 2001) } := by
  induction bs generalizing k bytes gap with
  | nil => exact absurd rfl hne
  | cons b bs ih =>
    rw [List.length_cons] at hlen
    rw [receiveAll_cons, receive_body h]
    cases bs with
    | nil => rw [if_pos (by simpa using hlen), receiveAll_nil]
    | cons c bs =>
      rw [List.length_cons] at hlen
      have hrest : (bytes ++ [b]).length + (c :: bs).length = len + 1 := by
        simp only [List.length_append, List.length_cons, List.length_nil]
        omega
      rw [if_neg (by omega), ih (List.cons_ne_nil c bs) rfl hrest, List.append_assoc, List.singleton_append]

/-- A receiver that hunts and receives the bytes of a request frame has the frame good (R138 to R141). -/
theorem receiveAll_requestBytes {f : Frame} (hwf : f.wf = true) (h : k.receiver = .hunting) :
    k.receiveAll now (requestBytes f) = k.goodFrame now f := by
  obtain ⟨tag, code, params⟩ := f
  have hfit : params.length ≤ 248 := of_decide_eq_true hwf
  obtain ⟨hi, lo, hframe, hcrc⟩ := frameBytes_form (tag :: code :: params)
  have hlen : (byte (tag :: code :: params).length).toNat = params.length + 2 := by
    rw [byte_toNat]
    simp only [List.length_cons]
    omega
  unfold requestBytes
  rw [hframe]
  generalize byte (tag :: code :: params).length = n at hlen hcrc
  have hbody : [n].length + (tag :: code :: params).length = n.toNat + 1 := by
    simp only [hlen, List.length_cons, List.length_nil]
    omega
  rw [List.append_assoc, List.cons_append, List.cons_append, List.nil_append, receiveAll_cons, receive_hunting h, if_pos rfl,
    receiveAll_cons, receive_length rfl, if_pos (by omega), receiveAll_append,
    receiveAll_body _ (List.cons_ne_nil tag _) rfl hbody, receiveAll_cons, receive_firstCheck rfl, receiveAll_cons,
    receive_secondCheck rfl, receiveAll_nil]
  refine (complete_good hcrc.symm).trans ?_
  rw [← h]

/-- Settles O18: the run of the bytes, the frame that they become, and the room for it in the inbox. -/
theorem receivingTheBytesOfAFrameYieldsTheFrame : Obligations.ReceivingTheBytesOfAFrameYieldsTheFrame := by
  intro f s hwf hd hhunting hroom hpending
  rw [run_byteArrivals (requestBytes f) s hd hpending, receiveAll_requestBytes hwf hhunting,
    goodFrame_room s.link s.time hroom]

end Sys2Proof.Machine

/-! The replies on TXD: the end of a reply, the bytes and the levels that have been sent; and the silence trip of LINK (R131, R144,
R146, R148). -/

namespace Sys2Proof.Machine

variable {s : State}

/-! The end of a reply -/

/-- A reply of LEN `d + 2` has `d + 6` bytes, each of 3,125/36 µs (R144). -/
theorem byteTimes_reply (d : Nat) : byteTimes (d + 6) = ((d + 2 + 4) * 3125 + 35) / 36 := rfl

theorem replySent_of_sending {r : Reply} {rest : List Reply} {start : Time} (hreplies : s.link.replies = r :: rest)
    (hstart : s.link.sendStart = some start) :
    exec .replySent s =
      .next (if reached s.time (after start (((r.data.length + 2 + 4) * 3125 + 35) / 36)) then
        if r.thenReset then (s.beginReset .resetRequest).endReset else { s with link := s.link.pop s.time }
      else s) := by
  have hsent : s.link.sentTime = some (after start (((r.data.length + 2 + 4) * 3125 + 35) / 36)) := by
    unfold Link.sentTime
    rw [hreplies, hstart, ← byteTimes_reply]
  show execReplySent s = _
  unfold execReplySent
  rw [hreplies, hsent]

theorem pop_eq {k : Link} {r : Reply} {rest : List Reply} (now : Time) (h : k.replies = r :: rest) :
    k.pop now = { k with replies := rest, sendStart := if rest = [] then none else some now } := by
  unfold Link.pop
  rw [h, List.tail_cons]
  cases rest <;> rfl

/-- The end of a reset touches the device time, the device state and the validity of the banks (R17, R132). -/
theorem cleared_endReset {t : State} {pin : Fin 8 → Level} (h : t.Cleared pin) : t.endReset.Cleared pin :=
  let ⟨_, hrest⟩ := h
  ⟨rfl, hrest⟩

/-! The bytes that have been sent -/

/-- When a condition passes from a number to every smaller one, the numbers below `m` that meet it are the first ones. -/
theorem lt_countP_range {q : Nat → Bool} (hdown : ∀ i j, i ≤ j → q j = true → q i = true) (m : Nat) :
    ∀ j, j < m → (j < (List.range m).countP q ↔ q j = true) := by
  induction m with
  | zero => nofun
  | succ m ih =>
    intro j hj
    have hcount : (List.range (m + 1)).countP q = (List.range m).countP q + if q m then 1 else 0 := by
      rw [List.range_succ, List.countP_append, List.countP_singleton]
    have hmost : (List.range m).countP q ≤ m := by simpa using List.countP_le_length (p := q) (l := List.range m)
    cases hq : q m with
    | true =>
      have hall : (List.range m).countP q = (List.range m).length :=
        List.countP_eq_length.2 fun i hi => hdown i m (Nat.le_of_lt (List.mem_range.1 hi)) hq
      rw [hcount, hall, hq, List.length_range]
      exact iff_of_true hj (hdown j m (Nat.le_of_lt_succ hj) hq)
    | false =>
      rw [hcount, hq]
      obtain hj | rfl := Nat.lt_succ_iff_lt_or_eq.1 hj
      · exact ih j hj
      · rw [hq]
        exact iff_of_false (Nat.not_lt.2 hmost) Bool.false_ne_true

theorem byteTimes_mono {m n : Nat} (h : m ≤ n) : byteTimes m ≤ byteTimes n := by
  unfold byteTimes
  omega

theorem sentBytes_of_sending {k : Link} {r : Reply} {rest : List Reply} {start : Time} (now : Time)
    (hreplies : k.replies = r :: rest) (hstart : k.sendStart = some start) :
    k.sentBytes now =
      r.bytes.take ((List.range r.bytes.length).countP fun j => byteTimes (j + 1) ≤ elapsed now start) := by
  unfold Link.sentBytes
  rw [hreplies, hstart]

/-! The level of TXD -/

theorem txdLevel_of_sending {k : Link} {r : Reply} {rest : List Reply} {start : Time} {bit : Nat} (now : Time)
    (hreplies : k.replies = r :: rest) (hstart : k.sendStart = some start) (hbit : bit = elapsed now start * 360 / 3125) :
    k.txdLevel now = (r.bytes[bit / 10]?.map fun b => lineBit b (bit % 10)).getD .high := by
  unfold Link.txdLevel
  rw [hreplies, hstart, hbit]
  simp only
  cases r.bytes[elapsed now start * 360 / 3125 / 10]? <;> rfl

theorem idle_of_no_replies {k : Link} (now : Time) (h : k.replies = []) : k.sentBytes now = [] ∧ k.txdLevel now = .high := by
  unfold Link.sentBytes Link.txdLevel
  rw [h]
  exact ⟨rfl, rfl⟩

/-- Bit `i` of byte `j` on TXD (log 14). -/
theorem txdLevel_of_byte {k : Link} {r : Reply} {rest : List Reply} {start : Time} {b : Byte} {i j : Nat} (now : Time)
    (hreplies : k.replies = r :: rest) (hstart : k.sendStart = some start) (hb : r.bytes[j]? = some b) (hi : i < 10)
    (hbit : 10 * j + i = elapsed now start * 360 / 3125) : k.txdLevel now = lineBit b i := by
  rw [txdLevel_of_sending now hreplies hstart hbit, show (10 * j + i) / 10 = j by omega, show (10 * j + i) % 10 = i by omega, hb,
    Option.map_some, Option.getD_some]

theorem lineBit_data {b : Byte} {i : Nat} (hi : i < 8) : lineBit b (1 + i) = if b.getLsbD i then .high else .low := by
  unfold lineBit
  rw [if_neg (by omega), if_neg (by omega), Nat.add_sub_cancel_left]

/-- Settles O20: the end of the front reply, or of an accepted RESET's, and then what TXD has sent. -/
theorem repliesAreSentInOrder : Obligations.RepliesAreSentInOrder := by
  refine ⟨fun s r rest start hreplies hstart => ?_,
    fun k now => ⟨idle_of_no_replies now, fun r rest start hreplies hstart => ?_⟩⟩
  · rw [replySent_of_sending hreplies hstart]
    refine ⟨fun hr => ?_, fun hr => ⟨fun hplain => ?_, fun hreset => ?_⟩⟩
    · rw [hr]; rfl
    · rw [if_pos hr, hplain, pop_eq s.time hreplies]; rfl
    · rw [if_pos hr, if_pos hreset]
      refine ⟨_, rfl, rfl, rfl, rfl, cleared_endReset (cleared_beginReset s .resetRequest), rfl, rfl, ?_, ?_, rfl, rfl⟩
      · exact congrArg Bank.valid (bank_decide_eq s.store.bankA)
      · exact congrArg Bank.valid (bank_decide_eq s.store.bankB)
  · refine ⟨rfl, ⟨_, sentBytes_of_sending now hreplies hstart, ?_, fun j hj => ?_⟩,
      fun bit hbit => ⟨fun hend => ?_, fun j b hb => ?_⟩⟩
    · simpa using List.countP_le_length (l := List.range r.bytes.length)
    · rw [lt_countP_range (fun i j hij hq => ?_) _ j hj, decide_eq_true_eq]
      · rfl
      · exact decide_eq_true (Nat.le_trans (byteTimes_mono (Nat.succ_le_succ hij)) (of_decide_eq_true hq))
    · rw [txdLevel_of_sending now hreplies hstart hbit, List.getElem?_eq_none (by omega), Option.map_none,
        Option.getD_none]
    · exact ⟨fun hi => txdLevel_of_byte (i := 0) now hreplies hstart hb (by decide) (hi.symm.trans hbit),
        fun hi => txdLevel_of_byte (i := 9) now hreplies hstart hb (by decide) (hi.symm.trans hbit),
        fun i hi hdata => (txdLevel_of_byte now hreplies hstart hb (by omega) (by omega)).trans (lineBit_data hi)⟩

/-! The silence trip -/

/-- Settles O21: the trip of LINK, whose TRIP notice is always admitted. -/
theorem silenceTripsLink : Obligations.SilenceTripsLink := by
  intro s due hwatching
  have hexec : exec .silenceExpiry s = .next (if reached s.time due then s.tripLink else s) := by
    show execSilenceExpiry s = _
    unfold execSilenceExpiry
    rw [hwatching]
  rw [hexec]
  refine ⟨fun hr => by rw [hr]; rfl, fun hr => ⟨s.tripLink, congrArg Host.Outcome.next (if_pos hr), rfl, ?_⟩⟩
  rw [← reactionCount_eq, queue_tripLink]
  exact offer_admitted s.queue s.time (.trip .link) (.tripLink s.link.timeout (s.reactionCount .link)) (.inl rfl)

end Sys2Proof.Machine

/-! The generic checks of a request, in the order of R145: the range check of every field form, and the screen of every one of the
28 requests (R145, R154, R155, R170, R172). -/

namespace Sys2Proof.Machine

/-! Fields -/

theorem field_one (a : Byte) (rest : List Byte) : field (a :: rest) 0 1 = a.toNat := by
  show 0 * 256 + a.toNat = _
  omega

theorem field_two (a b : Byte) (rest : List Byte) : field (a :: b :: rest) 0 2 = nat16 a b := by
  show (0 * 256 + a.toNat) * 256 + b.toNat = _
  unfold nat16
  omega

theorem field_three (a b c : Byte) (rest : List Byte) : field (a :: b :: c :: rest) 0 3 = nat24 a b c := by
  show ((0 * 256 + a.toNat) * 256 + b.toNat) * 256 + c.toNat = _
  unfold nat24
  omega

/-! When a field is in its range -/

theorem isSome_finOf (n : Nat) (b : Byte) : (finOf n b).isSome ↔ b.toNat < n := by
  unfold finOf
  split
  · next h => exact iff_of_true rfl h
  · next h => exact iff_of_false nofun h

theorem isSome_boolOf (b : Byte) : (boolOf b).isSome ↔ b.toNat ≤ 1 := by
  revert b
  decide

theorem isSome_levelOf (b : Byte) : (levelOf b).isSome ↔ b.toNat ≤ 1 := by
  revert b
  decide

theorem isSome_maskOf (n : Nat) (b : Byte) : (maskOf n b).isSome ↔ b.toNat < 2 ^ n := by
  unfold maskOf
  split
  · next h => exact iff_of_true rfl h
  · next h => exact iff_of_false nofun h

theorem isSome_sourceOf (b : Byte) : (sourceOf b).isSome ↔ b.toNat ≤ 8 := by
  unfold sourceOf sourceOfNat
  split
  · exact iff_of_true rfl (by omega)
  · split
    · exact iff_of_true rfl (by omega)
    · exact iff_of_false nofun (by omega)

theorem isSome_driveOf (a b : Byte) : (driveOf a b).isSome ↔ nat16 a b ≤ 4097 := by
  unfold driveOf driveOfNat
  split
  · exact iff_of_true rfl (by omega)
  · split
    · exact iff_of_true rfl (by omega)
    · split
      · exact iff_of_true rfl (by omega)
      · exact iff_of_false nofun (by omega)

theorem isSome_fetchCountOf (b : Byte) : (fetchCountOf b).isSome ↔ 1 ≤ b.toNat ∧ b.toNat ≤ 8 := by
  unfold fetchCountOf
  split
  · next h => exact iff_of_true rfl h
  · next h => exact iff_of_false nofun h

/-- The value bytes are examined only when the presence byte is 01H (R159). -/
theorem isSome_acquireOf (p a b c : Byte) :
    (acquireOf p a b c).isSome ↔ p.toNat ≤ 1 ∧ (p.toNat = 1 → 1 ≤ nat24 a b c) := by
  have hzero : p = 0 ↔ p.toNat = 0 := BitVec.toNat_inj.symm
  have hone : p = 1 ↔ p.toNat = 1 := BitVec.toNat_inj.symm
  unfold acquireOf
  simp only [hzero, hone]
  split
  · exact iff_of_true rfl (by omega)
  · split
    · split
      · exact iff_of_true rfl (by omega)
      · exact iff_of_false nofun (by omega)
    · exact iff_of_false nofun (by omega)

theorem isSome_configOf (line pat limit forgive pres a b c mask boot : Byte) :
    (configOf line pat limit forgive pres a b c mask boot).isSome ↔
      ((finOf 8 line).isSome ∧ (finOf 16 pat).isSome ∧ (acquireOf pres a b c).isSome ∧ (maskOf 5 mask).isSome ∧
        (boolOf boot).isSome) ∧ 1 ≤ limit.toNat ∧ limit.toNat ≤ 15 := by
  unfold configOf
  split
  · next hline hpat hacquire hmask hboot =>
    rw [hline, hpat, hacquire, hmask, hboot]
    split
    · next hlimit => exact iff_of_true rfl ⟨⟨rfl, rfl, rfl, rfl, rfl⟩, hlimit⟩
    · next hlimit => exact iff_of_false nofun fun ⟨_, h⟩ => hlimit h
  · next hnone =>
    refine iff_of_false nofun fun ⟨⟨hline, hpat, hacquire, hmask, hboot⟩, _⟩ => ?_
    exact hnone _ _ _ _ _ (Option.some_get hline).symm (Option.some_get hpat).symm (Option.some_get hacquire).symm
      (Option.some_get hmask).symm (Option.some_get hboot).symm

/-- The reaction fields are examined only when the flag is 00H (R172). -/
theorem isSome_reactionOf (flag src out d1 d2 prio : Byte) :
    (reactionOf flag src out d1 d2 prio).isSome ↔
      flag.toNat ≤ 1 ∧ (flag.toNat = 0 →
        (sourceOf src).isSome ∧ (finOf 6 out).isSome ∧ (driveOf d1 d2).isSome ∧ (finOf 8 prio).isSome) := by
  have hzero : flag = 0 ↔ flag.toNat = 0 := BitVec.toNat_inj.symm
  have hone : flag = 1 ↔ flag.toNat = 1 := BitVec.toNat_inj.symm
  unfold reactionOf
  simp only [hzero, hone]
  split
  · next h => exact iff_of_true rfl ⟨Nat.le_of_eq h, fun h0 => by omega⟩
  · next h1 =>
    split
    · next h0 =>
      have hexamined (p : Prop) : flag.toNat ≤ 1 ∧ (flag.toNat = 0 → p) ↔ p :=
        ⟨fun h => h.2 h0, fun h => ⟨by omega, fun _ => h⟩⟩
      rw [hexamined]
      split
      · next hsrc hout hdrive hprio =>
        rw [hsrc, hout, hdrive, hprio]
        exact iff_of_true rfl ⟨rfl, rfl, rfl, rfl⟩
      · next hnone =>
        refine iff_of_false nofun fun ⟨hsrc, hout, hdrive, hprio⟩ => ?_
        exact hnone _ _ _ _ (Option.some_get hsrc).symm (Option.some_get hout).symm (Option.some_get hdrive).symm
          (Option.some_get hprio).symm
    · next h0 => exact iff_of_false nofun fun ⟨h, _⟩ => by omega

/-- A step record in range lies within the ranges of R3, since a max of three bytes does. -/
theorem stepInRange_record (a b c d e f m : Byte) (rest : List Byte) :
    stepInRange (a :: b :: c :: d :: e :: f :: m :: rest) 0 ↔
      (boolOf m).isSome ∧
        (nat24 a b c ≤ Config.maxStepMin ∧ nat24 a b c < nat24 d e f ∧ nat24 d e f ≤ Config.maxStepMax) := by
  have hmin := field_three a b c (d :: e :: f :: m :: rest)
  have hmax := field_three d e f (m :: rest)
  have hmark := field_one m rest
  have hd : d.toNat < 256 := d.isLt
  have he : e.toNat < 256 := e.isLt
  have hf : f.toNat < 256 := f.isLt
  have hbound : nat24 d e f ≤ 16777215 := by unfold nat24; omega
  rw [isSome_boolOf, ← hmin, ← hmax, ← hmark] at *
  show field _ 0 3 < field (d :: e :: f :: m :: rest) 0 3 ∧ field (m :: rest) 0 1 ≤ 1 ↔ _
  show _ ↔ _ ∧ (_ ≤ 16777214 ∧ _ ∧ _ ≤ 16777215)
  omega

/-- The record parser accepts the records whose steps are all in range (R7). -/
theorem isSome_stepsOf (n : Nat) (records : List Byte) (h : records.length = 7 * n) :
    (stepsOf records).isSome ↔ ∀ j, j < n → stepInRange records (7 * j) := by
  induction n generalizing records with
  | zero =>
    rw [List.length_eq_zero_iff.1 h]
    exact iff_of_true rfl nofun
  | succ n ih =>
    match records, h with
    | a :: b :: c :: d :: e :: f :: m :: rest, h =>
      have hrest : rest.length = 7 * n := by simp only [List.length_cons] at h; omega
      have hfirst := stepInRange_record a b c d e f m rest
      have hnext (j : Nat) : stepInRange (a :: b :: c :: d :: e :: f :: m :: rest) (7 * (j + 1)) ↔ stepInRange rest (7 * j) := by
        rw [Nat.mul_succ]
        exact Iff.rfl
      rw [Nat.forall_lt_succ_left]
      simp only [hnext, Nat.mul_zero, hfirst, ← ih rest hrest]
      simp only [stepsOf]
      cases hm : boolOf m with
      | none => simp
      | some mark =>
        cases hs : stepsOf rest with
        | none => simp
        | some steps =>
          simp only
          split
          · next hrange => exact iff_of_true rfl ⟨⟨rfl, hrange⟩, rfl⟩
          · next hrange => exact iff_of_false nofun fun ⟨⟨_, h⟩, _⟩ => hrange h

end Sys2Proof.Machine

/-! The screen of each of the 28 requests, and the generic checks of every frame that the executor takes (R145, R154, R155,
R172). -/

namespace Sys2Proof.Machine

variable {code : Byte}

/-- A request is carried out behind the generic checks of its code and the device-state check, in the order of R145. -/
structure Screened (code : Byte) (carryOut : List Byte → State → Answer) : Prop where
  length : ∀ (params : List Byte) (s : State), params.length ≠ parameterLength code params →
    carryOut params s = .refuse .badLength
  value : ∀ (params : List Byte) (s : State), params.length = parameterLength code params → ¬valuesInRange code params →
    carryOut params s = .refuse .badValue
  state : ∀ (params : List Byte) (s : State), params.length = parameterLength code params → valuesInRange code params →
    s.device = .starting → code ≠ 0x10 → code ≠ 0x11 → carryOut params s = .refuse .notReady

theorem whenRunning_starting {s : State} (hd : s.device = .starting) (a : Answer) : whenRunning s a = .refuse .notReady :=
  if_neg (by rw [hd]; nofun)

/-- The screen of a request by its branches: BAD_LENGTH, and for the right length either in range and then the device state, or
BAD_VALUE. -/
theorem screened_of_branches {carryOut : List Byte → State → Answer}
    (hlong : ∀ params s, params.length ≠ parameterLength code params → carryOut params s = .refuse .badLength)
    (hvalue : ∀ params s, params.length = parameterLength code params →
      (valuesInRange code params ∧ ∃ a, carryOut params s = whenRunning s a) ∨
        (¬valuesInRange code params ∧ carryOut params s = .refuse .badValue)) : Screened code carryOut where
  length := hlong
  value params s h hbad := by
    obtain ⟨hgood, -⟩ | ⟨-, hrefused⟩ := hvalue params s h
    · exact absurd hgood hbad
    · exact hrefused
  state params s h hgood hd _ _ := by
    obtain ⟨-, a, hchecked⟩ | ⟨hbad, -⟩ := hvalue params s h
    · exact hchecked.trans (whenRunning_starting hd a)
    · exact absurd hgood hbad

/-! Requests without parameters, and with one parameter -/

theorem screened_noParams {answer : State → Answer} (hlen : ∀ params, parameterLength code params = 0)
    (hval : valuesInRange code [])
    (hstate : ∀ s : State, s.device = .starting → code ≠ 0x10 → code ≠ 0x11 → answer s = .refuse .notReady) :
    Screened code fun params s => noParams params (answer s) where
  length params s h := by
    rw [hlen] at h
    cases params with
    | nil => exact absurd rfl h
    | cons b rest => rfl
  value params s h hbad := by
    rw [hlen] at h
    rw [List.length_eq_zero_iff.1 h] at hbad
    exact absurd hval hbad
  state params s h _ hd := by
    rw [hlen] at h
    rw [List.length_eq_zero_iff.1 h]
    exact hstate s hd

theorem screened_oneParam {α : Type} {parse : Byte → Option α} {answer : State → α → Answer}
    (hlen : ∀ params, parameterLength code params = 1) (hval : ∀ b, valuesInRange code [b] ↔ (parse b).isSome) :
    Screened code fun params s => oneParam params s parse (answer s) := by
  refine screened_of_branches (fun params s h => ?_) fun params s h => ?_
  · rw [hlen] at h
    unfold oneParam
    split
    · exact absurd rfl h
    · rfl
  · rw [hlen] at h
    obtain ⟨b, rfl⟩ := List.length_eq_one_iff.1 h
    rw [hval]
    unfold oneParam
    simp only
    cases parse b with
    | none => exact .inr ⟨nofun, rfl⟩
    | some x => exact .inl ⟨rfl, _, rfl⟩

/-- A request whose one parameter is the number of a channel, a line, an output, a pattern or an entry. -/
theorem screened_index {n : Nat} {answer : State → Fin (n + 1) → Answer} (hlen : ∀ params, parameterLength code params = 1)
    (hval : ∀ params, valuesInRange code params = (field params 0 1 ≤ n)) :
    Screened code fun params s => oneParam params s (finOf (n + 1)) (answer s) :=
  screened_oneParam hlen fun b => by rw [hval, field_one, isSome_finOf, Nat.lt_succ_iff]

/-! Requests with several parameters -/

theorem screened_setLink : Screened 0x28 setLinkAnswer := by
  refine screened_of_branches (fun params s h => ?_) fun params s (h : params.length = 2) => ?_
  · unfold setLinkAnswer
    split
    · exact absurd rfl h
    · rfl
  · match params, h with
    | [t1, t2], _ =>
      have hval : valuesInRange 0x28 [t1, t2] ↔ nat16 t1 t2 = 0 ∨ 10 ≤ nat16 t1 t2 ∧ nat16 t1 t2 ≤ 60000 := by
        show field _ 0 2 = 0 ∨ 10 ≤ field _ 0 2 ∧ field _ 0 2 ≤ 60000 ↔ _
        rw [field_two]
      rw [hval]
      unfold setLinkAnswer
      simp only
      split
      · next hgood => exact .inl ⟨hgood, _, rfl⟩
      · next hbad => exact .inr ⟨hbad, rfl⟩

theorem screened_setLine : Screened 0x70 setLineAnswer := by
  refine screened_of_branches (fun params s h => ?_) fun params s (h : params.length = 4) => ?_
  · unfold setLineAnswer
    split
    · exact absurd rfl h
    · rfl
  · match params, h with
    | [line, f1, f2, clear], _ =>
      have hval : valuesInRange 0x70 [line, f1, f2, clear] ↔
          ((finOf 8 line).isSome ∧ (boolOf clear).isSome) ∧ nat16 f1 f2 ≤ 1023 := by
        show field _ 0 1 ≤ 7 ∧ field [f1, f2, clear] 0 2 ≤ 1023 ∧ field [clear] 0 1 ≤ 1 ↔ _
        simp only [field_one, field_two, isSome_finOf, isSome_boolOf]
        omega
      rw [hval]
      unfold setLineAnswer
      simp only
      split
      · next hline hclear =>
        rw [hline, hclear]
        split
        · next hf => exact .inl ⟨⟨⟨rfl, rfl⟩, hf⟩, _, rfl⟩
        · next hf => exact .inr ⟨fun ⟨_, h⟩ => hf h, rfl⟩
      · next hnone =>
        refine .inr ⟨fun ⟨⟨hline, hclear⟩, _⟩ => ?_, rfl⟩
        exact hnone _ _ (Option.some_get hline).symm (Option.some_get hclear).symm

theorem screened_setOutput : Screened 0x68 setOutputAnswer := by
  refine screened_of_branches (fun params s h => ?_) fun params s (h : params.length = 4) => ?_
  · unfold setOutputAnswer
    split
    · exact absurd rfl h
    · rfl
  · match params, h with
    | [out, d1, d2, rate], _ =>
      have hval : valuesInRange 0x68 [out, d1, d2, rate] ↔
          (finOf 6 out).isSome ∧ (driveOf d1 d2).isSome ∧ (finOf 5 rate).isSome := by
        show field _ 0 1 ≤ 5 ∧ field [d1, d2, rate] 0 2 ≤ 4097 ∧ field [rate] 0 1 ≤ 4 ↔ _
        simp only [field_one, field_two, isSome_finOf, isSome_driveOf]
        omega
      rw [hval]
      unfold setOutputAnswer
      simp only
      split
      · next hout hdrive hrate =>
        rw [hout, hdrive, hrate]
        exact .inl ⟨⟨rfl, rfl, rfl⟩, _, rfl⟩
      · next hnone =>
        refine .inr ⟨fun ⟨hout, hdrive, hrate⟩ => ?_, rfl⟩
        exact hnone _ _ _ (Option.some_get hout).symm (Option.some_get hdrive).symm (Option.some_get hrate).symm

theorem screened_setReaction : Screened 0x60 setReactionAnswer := by
  refine screened_of_branches (fun params s h => ?_) fun params s (h : params.length = 7) => ?_
  · unfold setReactionAnswer
    split
    · exact absurd rfl h
    · rfl
  · match params, h with
    | [index, flag, src, out, d1, d2, prio], _ =>
      have hval : valuesInRange 0x60 [index, flag, src, out, d1, d2, prio] ↔
          (finOf 32 index).isSome ∧ (reactionOf flag src out d1 d2 prio).isSome := by
        show field _ 0 1 ≤ 31 ∧ field [flag, src, out, d1, d2, prio] 0 1 ≤ 1 ∧
          (field [flag, src, out, d1, d2, prio] 0 1 = 0 → field [src, out, d1, d2, prio] 0 1 ≤ 8 ∧
            field [out, d1, d2, prio] 0 1 ≤ 5 ∧ field [d1, d2, prio] 0 2 ≤ 4097 ∧ field [prio] 0 1 ≤ 7) ↔ _
        simp only [field_one, field_two, isSome_reactionOf, isSome_finOf, isSome_sourceOf, isSome_driveOf]
        omega
      rw [hval]
      unfold setReactionAnswer
      simp only
      split
      · next hindex hreaction =>
        rw [hindex, hreaction]
        exact .inl ⟨⟨rfl, rfl⟩, _, rfl⟩
      · next hnone =>
        refine .inr ⟨fun ⟨hindex, hreaction⟩ => ?_, rfl⟩
        exact hnone _ _ (Option.some_get hindex).symm (Option.some_get hreaction).symm

theorem screened_configureChannel : Screened 0x50 configureChannelAnswer := by
  refine screened_of_branches (fun params s h => ?_) fun params s (h : params.length = 11) => ?_
  · unfold configureChannelAnswer
    split
    · exact absurd rfl h
    · rfl
  · match params, h with
    | [ch, line, pat, limit, forgive, pres, a, b, d, mask, boot], _ =>
      have hval : valuesInRange 0x50 [ch, line, pat, limit, forgive, pres, a, b, d, mask, boot] ↔
          (finOf 8 ch).isSome ∧ (configOf line pat limit forgive pres a b d mask boot).isSome := by
        show field _ 0 1 ≤ 7 ∧ field [line, pat, limit, forgive, pres, a, b, d, mask, boot] 0 1 ≤ 7 ∧
          field [pat, limit, forgive, pres, a, b, d, mask, boot] 0 1 ≤ 15 ∧
          1 ≤ field [limit, forgive, pres, a, b, d, mask, boot] 0 1 ∧
          field [limit, forgive, pres, a, b, d, mask, boot] 0 1 ≤ 15 ∧ field [pres, a, b, d, mask, boot] 0 1 ≤ 1 ∧
          (field [pres, a, b, d, mask, boot] 0 1 = 1 → 1 ≤ field [a, b, d, mask, boot] 0 3) ∧ field [mask, boot] 0 1 < 32 ∧
          field [boot] 0 1 ≤ 1 ↔ _
        simp only [field_one, field_three, isSome_configOf, isSome_finOf, isSome_acquireOf, isSome_maskOf, isSome_boolOf]
        omega
      rw [hval]
      unfold configureChannelAnswer
      simp only
      split
      · next hchannel hconfig =>
        rw [hchannel, hconfig]
        exact .inl ⟨⟨rfl, rfl⟩, _, rfl⟩
      · next hnone =>
        refine .inr ⟨fun ⟨hchannel, hconfig⟩ => ?_, rfl⟩
        exact hnone _ _ (Option.some_get hchannel).symm (Option.some_get hconfig).symm

/-- DEFINE_PATTERN's length follows from the declared count, and its records are read after the fixed part (R7, R160). -/
theorem screened_definePattern : Screened 0x40 definePatternAnswer := by
  have hlength (id level n : Byte) (records : List Byte) :
      (id :: level :: n :: records).length = parameterLength 0x40 (id :: level :: n :: records) ↔
        records.length = 7 * n.toNat := by
    show records.length + 1 + 1 + 1 = 3 + 7 * n.toNat ↔ _
    omega
  refine screened_of_branches (fun params s h => ?_) fun params s h => ?_
  · unfold definePatternAnswer
    split
    · rw [Ne, hlength] at h
      exact if_pos h
    · rfl
  · match params, h with
    | id :: level :: n :: records, h =>
      have hrecords := (hlength id level n records).1 h
      have hval : valuesInRange 0x40 (id :: level :: n :: records) ↔
          ((finOf 16 id).isSome ∧ (levelOf level).isSome ∧ (stepsOf records).isSome) ∧
            (n.toNat % 2 = 0 ∧ 2 ≤ n.toNat ∧ n.toNat ≤ 16) := by
        have hstep (j : Nat) :
            stepInRange (id :: level :: n :: records) (3 + 7 * j) ↔ stepInRange records (7 * j) := by
          rw [Nat.add_comm]
          exact Iff.rfl
        show field _ 0 1 ≤ 15 ∧ field (level :: n :: records) 0 1 ≤ 1 ∧ field (n :: records) 0 1 % 2 = 0 ∧
          2 ≤ field (n :: records) 0 1 ∧ field (n :: records) 0 1 ≤ 16 ∧ (∀ j, j < field (n :: records) 0 1 → _) ↔ _
        simp only [field_one, hstep, isSome_finOf, isSome_levelOf, isSome_stepsOf n.toNat records hrecords, Nat.lt_succ_iff]
        tauto
      rw [hval]
      unfold definePatternAnswer
      simp only
      rw [if_neg (not_not.2 hrecords)]
      split
      · next hid hlevel hsteps =>
        rw [hid, hlevel, hsteps]
        split
        · next hcount => exact .inl ⟨⟨⟨rfl, rfl, rfl⟩, hcount⟩, _, rfl⟩
        · next hcount => exact .inr ⟨fun ⟨_, h⟩ => hcount h, rfl⟩
      · next hnone =>
        refine .inr ⟨fun ⟨⟨hid, hlevel, hsteps⟩, _⟩ => ?_, rfl⟩
        exact hnone _ _ _ (Option.some_get hid).symm (Option.some_get hlevel).symm (Option.some_get hsteps).symm

/-! Requests of one parameter other than an index -/

theorem screened_fetch : Screened 0x20 fetchAnswer :=
  screened_oneParam (fun _ => rfl) fun b => by rw [isSome_fetchCountOf, ← field_one b []]; exact Iff.rfl

theorem screened_setAttention : Screened 0x21 setAttentionAnswer :=
  screened_oneParam (fun _ => rfl) fun b => by rw [isSome_maskOf, ← field_one b []]; exact Iff.rfl

theorem screened_rearm : Screened 0x30 rearmAnswer :=
  screened_oneParam (fun _ => rfl) fun b => by rw [isSome_sourceOf, ← field_one b []]; exact Iff.rfl

/-! The frames that the executor takes -/

/-- A frame whose code names one of the 28 requests is that request, behind its screen (R145, R172). -/
theorem screened_ofFrame (f : Frame) (h : f.code ∈ requestCodes) : ∃ carryOut : List Byte → State → Answer,
    Screened f.code carryOut ∧ ∀ s : State, exec (Instr.ofFrame f) s = .next (s.request f (carryOut f.params)) := by
  obtain ⟨tag, code, params⟩ := f
  simp only [requestCodes, List.cons_append, List.nil_append, List.mem_cons, List.not_mem_nil, or_false] at h
  rcases h with rfl | rfl | rfl | rfl | rfl | rfl | rfl | rfl | rfl | rfl | rfl | rfl | rfl | rfl | rfl | rfl | rfl | rfl |
    rfl | rfl | rfl | rfl | rfl | rfl | rfl | rfl | rfl | rfl
  · exact ⟨identifyAnswer, screened_noParams (fun _ => rfl) trivial fun _ _ h => absurd rfl h, fun _ => rfl⟩
  · exact ⟨statusAnswer, screened_noParams (fun _ => rfl) trivial fun _ _ _ h => absurd rfl h, fun _ => rfl⟩
  · exact ⟨resetAnswer, screened_noParams (fun _ => rfl) trivial fun _ hd _ _ => whenRunning_starting hd _, fun _ => rfl⟩
  · exact ⟨fetchAnswer, screened_fetch, fun _ => rfl⟩
  · exact ⟨setAttentionAnswer, screened_setAttention, fun _ => rfl⟩
  · exact ⟨setLinkAnswer, screened_setLink, fun _ => rfl⟩
  · exact ⟨rearmAnswer, screened_rearm, fun _ => rfl⟩
  · exact ⟨savePlanAnswer, screened_noParams (fun _ => rfl) trivial fun _ hd _ _ => whenRunning_starting hd _, fun _ => rfl⟩
  · exact ⟨erasePlanAnswer, screened_noParams (fun _ => rfl) trivial fun _ hd _ _ => whenRunning_starting hd _, fun _ => rfl⟩
  · exact ⟨definePatternAnswer, screened_definePattern, fun _ => rfl⟩
  · exact ⟨deletePatternAnswer, screened_index (n := 15) (fun _ => rfl) fun _ => rfl, fun _ => rfl⟩
  · exact ⟨readPatternAnswer, screened_index (n := 15) (fun _ => rfl) fun _ => rfl, fun _ => rfl⟩
  · exact ⟨configureChannelAnswer, screened_configureChannel, fun _ => rfl⟩
  · exact ⟨clearChannelAnswer, screened_index (n := 7) (fun _ => rfl) fun _ => rfl, fun _ => rfl⟩
  · exact ⟨armAnswer, screened_index (n := 7) (fun _ => rfl) fun _ => rfl, fun _ => rfl⟩
  · exact ⟨disarmAnswer, screened_index (n := 7) (fun _ => rfl) fun _ => rfl, fun _ => rfl⟩
  · exact ⟨pauseAnswer, screened_index (n := 7) (fun _ => rfl) fun _ => rfl, fun _ => rfl⟩
  · exact ⟨resumeAnswer, screened_index (n := 7) (fun _ => rfl) fun _ => rfl, fun _ => rfl⟩
  · exact ⟨injectAnswer, screened_index (n := 7) (fun _ => rfl) fun _ => rfl, fun _ => rfl⟩
  · exact ⟨readChannelAnswer, screened_index (n := 7) (fun _ => rfl) fun _ => rfl, fun _ => rfl⟩
  · exact ⟨readObservedAnswer, screened_index (n := 7) (fun _ => rfl) fun _ => rfl, fun _ => rfl⟩
  · exact ⟨clearObservedAnswer, screened_index (n := 7) (fun _ => rfl) fun _ => rfl, fun _ => rfl⟩
  · exact ⟨setReactionAnswer, screened_setReaction, fun _ => rfl⟩
  · exact ⟨readReactionAnswer, screened_index (n := 31) (fun _ => rfl) fun _ => rfl, fun _ => rfl⟩
  · exact ⟨setOutputAnswer, screened_setOutput, fun _ => rfl⟩
  · exact ⟨readOutputAnswer, screened_index (n := 5) (fun _ => rfl) fun _ => rfl, fun _ => rfl⟩
  · exact ⟨setLineAnswer, screened_setLine, fun _ => rfl⟩
  · exact ⟨readLineAnswer, screened_index (n := 7) (fun _ => rfl) fun _ => rfl, fun _ => rfl⟩

/-- A frame whose code names no request is refused by its code alone (R145). -/
theorem exec_ofFrame_unknown (f : Frame) (s : State) (h : f.code ∉ requestCodes) :
    exec (Instr.ofFrame f) s = .next (s.request f fun _ => .refuse .unknownRequest) := by
  obtain ⟨tag, code, params⟩ := f
  unfold Instr.ofFrame
  simp only at h ⊢
  split
  case h_29 => exact congrArg Host.Outcome.next (if_neg (by simpa using h))
  all_goals exact absurd (by decide) h

/-- Settles O23: the frame's code, and then the screen of its request. -/
theorem genericChecksInOrder : Obligations.GenericChecksInOrder := by
  intro f s rest htakes
  refine ⟨fun hunknown => ?_, fun hknown => ?_⟩
  · rw [exec_ofFrame_unknown f s hunknown, request_refused htakes rfl]
  · obtain ⟨carryOut, hscreen, hexec⟩ := screened_ofFrame f hknown
    have hrefused {status : Status} (h : carryOut f.params (s.taken rest) = .refuse status) :
        exec (Instr.ofFrame f) s = .next (s.refused rest f.tag status) := by
      rw [hexec, request_refused htakes h]
    exact ⟨fun hlong => hrefused (hscreen.length _ _ hlong),
      fun hlen => ⟨fun hbad => hrefused (hscreen.value _ _ hlen hbad),
        fun hgood hd hidentify hstatus => hrefused (hscreen.state _ _ hlen hgood hd hidentify hstatus)⟩⟩

end Sys2Proof.Machine

/-! IDENTIFY, STATUS, RESET and SET_LINK, as the executor carries them out (R146, R149, R163, R165, R168). -/

namespace Sys2Proof.Machine

variable {s : State}

/-! STATUS's data, piece by piece -/

/-- An invalid bank's generation is written 00000000H (R168, R170). -/
theorem bank_bytes (b : Bank) :
    b.bytes = match b.generation with | some g => 1 :: be32 g.toNat | none => [0, 0, 0, 0, 0] := by
  unfold Bank.bytes
  cases b.generation <;> rfl

theorem deviceState_toByte {x : DeviceState} (h : x ≠ .reset) : x.toByte = if x = .running then 2 else 1 := by
  cases x with
  | reset => exact absurd rfl h
  | starting => rfl
  | running => rfl

theorem linkState_toByte (x : LinkState) :
    x.toByte = match x with | .off => (0 : Byte) | .watching _ => 1 | .tripped => 2 := by
  cases x <;> rfl

theorem storeOp_toByte (x : StoreOp) :
    x.toByte = match x with | .idle => (0 : Byte) | .saving _ _ _ _ => 1 | .erasing _ _ => 2 := by
  cases x <;> rfl

/-- The fields of R168, of a part that is not in RESET. -/
theorem statusData_eq (hd : s.device ≠ .reset) :
    s.statusData =
      [if s.device = .running then (2 : Byte) else 1] ++ be32 s.time.toNat ++ [byte s.queue.notices.length] ++
        be16 s.queue.dropped.toNat ++
        [match s.link.source with | .off => (0 : Byte) | .watching _ => 1 | .tripped => 2] ++ be16 s.link.timeout ++
        be16 s.link.errors.toNat ++ be16 s.link.busy.toNat ++
        [match s.store.op with | .idle => (0 : Byte) | .saving _ _ _ _ => 1 | .erasing _ _ => 2] ++
        (match s.store.bankA.generation with | some g => 1 :: be32 g.toNat | none => [0, 0, 0, 0, 0]) ++
        (match s.store.bankB.generation with | some g => 1 :: be32 g.toNat | none => [0, 0, 0, 0, 0]) := by
  unfold State.statusData
  rw [deviceState_toByte hd, linkState_toByte, storeOp_toByte, bank_bytes, bank_bytes]
  rfl

/-- RESET in RUNNING is answered OK, with the reset to follow its reply (R146, R165). -/
theorem request_reset {f : Frame} {rest : List Frame} {carryOut : State → Answer} (h : s.Takes f rest)
    (ha : carryOut (s.taken rest) = .okThenReset (s.taken rest)) :
    s.request f carryOut = s.replied rest { tag := f.tag, status := .ok, data := [], thenReset := true } := by
  rw [request_of_takes s f rest carryOut h]
  refine (congrArg (State.answer (s.taken rest) f.tag) ha).trans ?_
  simp only [State.answer, push_eq, State.replied, State.taken]

/-- Settles O25: two reads, and a RESET that changes nothing before its reply has been sent. -/
theorem identifyStatusAndReset : Obligations.IdentifyStatusAndReset := by
  refine fun s tag rest => ⟨fun htakes => congrArg Host.Outcome.next (request_read htakes rfl), fun htakes => ?_,
    fun ⟨htakes, hd⟩ => ?_⟩
  · have hread := request_read (carryOut := statusAnswer []) (data := s.statusData) htakes rfl
    obtain ⟨hd, -⟩ := htakes
    exact congrArg Host.Outcome.next (hread.trans (congrArg (s.answered rest tag) (statusData_eq hd)))
  · exact congrArg Host.Outcome.next (request_reset htakes (if_pos hd))

/-! SET_LINK -/

theorem setLinkAnswer_of_running {t : Nat} (ht : t = 0 ∨ 10 ≤ t ∧ t ≤ 60000) (hd : s.device = .running) :
    setLinkAnswer (be16 t) s =
      .ok ((s.link.setTimeout s.time t).source.toByte :: be16 t) { s with link := s.link.setTimeout s.time t } := by
  have hbytes : nat16 (byte (t / 256)) (byte t) = t := nat16_be16 t (by omega)
  unfold be16 setLinkAnswer
  simp only [hbytes]
  rw [if_pos ht]
  exact if_pos hd

/-- SET_LINK, carried out: `x` is the state of LINK that it asks for (R149). -/
theorem request_setLink {tag : Byte} {t : Nat} {rest : List Frame} {x : LinkState} (ht : t = 0 ∨ 10 ≤ t ∧ t ≤ 60000)
    (h : s.Ready ⟨tag, 0x28, be16 t⟩ rest)
    (hx : x = if s.link.source = .tripped then .tripped else if t = 0 then .off else .watching (after s.time (t * 1000))) :
    s.request ⟨tag, 0x28, be16 t⟩ (setLinkAnswer (be16 t)) =
      { s with link := { (s.answered rest tag (x.toByte :: be16 t)).link with source := x, timeout := t } } := by
  obtain ⟨htakes, hd⟩ := h
  have hset : (s.taken rest).link.setTimeout (s.taken rest).time t =
      { (s.taken rest).link with source := x, timeout := t } := by
    rw [hx]
    rfl
  have hanswer := setLinkAnswer_of_running (s := s.taken rest) ht hd
  rw [hset] at hanswer
  rw [request_of_takes s _ rest _ htakes]
  refine (congrArg (State.answer (s.taken rest) tag) hanswer).trans ?_
  simp only [State.answer, push_eq, State.answered, State.replied, State.taken]

/-- Settles O28: the state of LINK that the request asks for, and its reply. -/
theorem setLinkRecordsTheTimeout : Obligations.SetLinkRecordsTheTimeout := by
  intro s tag t rest x ht hready hx
  refine congrArg Host.Outcome.next ((request_setLink ht hready hx).trans ?_)
  exact congrArg (fun state : Byte =>
    { s with link := { (s.answered rest tag (state :: be16 t)).link with source := x, timeout := t } }) (linkState_toByte x)

end Sys2Proof.Machine

/-! Frames and the commands they name: the same TAG, code and parameters both ways (R172). -/

namespace Sys2Proof.Laws.FrameLaw

/-- The frame law of every command, from the law of each, in the order in which `Instr` declares them. -/
theorem statement_of_instr (i : Instr) : Statement i :=
  i.casesOn (motive := Statement)
    arm clearChannel clearObserved configureChannel definePattern deletePattern disarm erasePlan fetch identify inject pause
    readChannel readLine readObserved readOutput readPattern readReaction rearm resetRequest resume savePlan setAttention
    setLine setLink setOutput setReaction status rawChange qualificationExpiry stepDeadline acquireExpiry frameEndExpiry
    saveCompletion secondBankInvalidation eraseCompletion powerOn resetLine resetEnd planLoadEnd byteArrival framingFault
    gapExpiry replySent silenceExpiry unknownRequestCode

end Sys2Proof.Laws.FrameLaw

namespace Sys2Proof.Machine

/-- The command that a frame names carries that frame, whatever its code: one of the 28, or one that names no request
(R145, R172). -/
@[simp] theorem frame?_ofFrame (f : Frame) : (Instr.ofFrame f).frame? = some f := by
  obtain ⟨tag, code, params⟩ := f
  unfold Instr.ofFrame
  simp only
  split <;> rfl

/-- The command that a frame names is well formed exactly when the frame fits the link: where it is UNKNOWN_REQUEST_CODE, the
code names none of the 28 requests (R138, R145). -/
theorem wf_ofFrame (f : Frame) : (Instr.ofFrame f).wf = f.wf := by
  obtain ⟨tag, code, params⟩ := f
  unfold Instr.ofFrame
  simp only
  split
  case h_29 =>
    have hunknown : requestCodes.contains code = false := by simp_all [requestCodes]
    simp only [Instr.wf, Instr.frame?, hunknown, Bool.not_false, Bool.and_true]
  all_goals exact Bool.and_true _

/-- Settles O24: the frame law of the command one way, and the frame's code the other. -/
theorem framesAndCommandsAgree : Obligations.FramesAndCommandsAgree :=
  ⟨fun i f hwf hframe => Laws.FrameLaw.statement_of_instr i hwf f hframe,
    fun f => ⟨frame?_ofFrame f, (wf_ofFrame f).trans⟩⟩

end Sys2Proof.Machine

/-! The queue of waiting commands: every command answers with a next state, and leaves that queue to the step, which alone takes
the front command off it. -/

namespace Sys2Proof.Machine

variable {s t : State}

/-! What leaves the queue of waiting commands -/

theorem pending_of_supervises (h : s.Supervises t) : t.pending = s.pending := by
  induction h with
  | refl => rfl
  | line l x _ ih => exact ih
  | record hx _ ih => exact ih
  | deviation dev hk _ ih => exact (turn_handleDeviation _ _ dev).pending.trans ih
  | mark now c k d cycles _ ih => exact ih
  | choose n _ ih => exact ih

theorem pending_disarm (s : State) (c : Fin 8) : (s.disarm c).pending = s.pending := by
  unfold State.disarm
  split
  · rfl
  · simp only
    split <;> rfl

theorem pending_rearm (s : State) (src : Source) : (s.rearm src).pending = s.pending := by
  cases src <;> rfl

theorem pending_definePattern (s : State) (id : Fin 16) (p : Pattern) : (s.definePattern id p).pending = s.pending := by
  rw [definePattern_rest]

theorem pending_enterRunning (s : State) (outcome : PlanOutcome) (g : Option Count32) :
    (s.enterRunning outcome g).pending = s.pending :=
  (congrArg State.pending (enterRunning_rest s outcome g)).trans rfl

/-- A reset takes away what the part was doing, and not what is still to come from outside. -/
theorem pending_beginReset (s : State) (cause : ResetCause) : (s.beginReset cause).pending = s.pending := rfl

theorem pending_endReset (s : State) : s.endReset.pending = s.pending := rfl

/-! Requests -/

section
variable {P : State → Prop} {check : Prop} [Decidable check] {status : Status} {a : Answer}

/-- A check that refuses when it holds. -/
theorem yields_refuseIf (h : ¬check → a.Yields P) : (if check then .refuse status else a).Yields P := by
  split
  · trivial
  · next hcheck => exact h hcheck

/-- A check that refuses unless it holds. -/
theorem yields_refuseUnless (h : check → a.Yields P) : (if check then a else .refuse status).Yields P := by
  split
  · next hcheck => exact h hcheck
  · trivial

end

/-- The effect of an answer leaves the queue of waiting commands as it is in `s`. -/
abbrev Answer.LeavesPending (a : Answer) (s : State) : Prop := a.Yields fun t => t.pending = s.pending

variable (s) (params : List Byte)

theorem leavesPending_configureChannelAnswer : (configureChannelAnswer params s).LeavesPending s := by
  unfold configureChannelAnswer
  split
  · split
    · refine yields_whenRunning (yields_refuseIf fun _ => ?_)
      split
      · trivial
      · rfl
    · trivial
  · trivial

theorem leavesPending_clearChannelAnswer : (clearChannelAnswer params s).LeavesPending s := by
  refine yields_oneParam params fun c => yields_refuseIf fun _ => ?_
  split
  · trivial
  · rfl

theorem leavesPending_armAnswer : (armAnswer params s).LeavesPending s := by
  refine yields_oneParam params fun c => yields_refuseIf fun _ => ?_
  split
  · trivial
  · exact yields_refuseIf fun _ => rfl

theorem leavesPending_pauseAnswer : (pauseAnswer params s).LeavesPending s :=
  yields_oneParam params fun _ => yields_refuseUnless fun _ => rfl

theorem leavesPending_resumeAnswer : (resumeAnswer params s).LeavesPending s :=
  yields_oneParam params fun _ => yields_refuseUnless fun _ => rfl

theorem leavesPending_injectAnswer : (injectAnswer params s).LeavesPending s :=
  yields_oneParam params fun _ => yields_refuseUnless fun hk => pending_of_supervises (supervises_inject hk)

theorem leavesPending_rearmAnswer : (rearmAnswer params s).LeavesPending s :=
  yields_oneParam params fun src => yields_refuseIf fun _ => yields_refuseIf fun _ => pending_rearm s src

theorem leavesPending_clearObservedAnswer : (clearObservedAnswer params s).LeavesPending s := by
  refine yields_oneParam params fun c => ?_
  split
  · trivial
  · rfl

theorem leavesPending_readObservedAnswer : (readObservedAnswer params s).LeavesPending s := by
  refine yields_oneParam params fun c => ?_
  split
  · trivial
  · rfl

theorem leavesPending_setReactionAnswer : (setReactionAnswer params s).LeavesPending s := by
  unfold setReactionAnswer
  split
  · split
    · exact yields_whenRunning (yields_refuseIf fun _ => yields_refuseIf fun _ => rfl)
    · trivial
  · trivial

theorem leavesPending_setOutputAnswer : (setOutputAnswer params s).LeavesPending s := by
  unfold setOutputAnswer
  split
  · split
    · exact yields_whenRunning rfl
    · trivial
  · trivial

theorem leavesPending_definePatternAnswer : (definePatternAnswer params s).LeavesPending s := by
  obtain ⟨status, he⟩ | ⟨data, id, p, he⟩ := definePatternAnswer_cases params s
  · rw [he]; trivial
  · rw [he]; exact pending_definePattern s id p

theorem leavesPending_deletePatternAnswer : (deletePatternAnswer params s).LeavesPending s := by
  refine yields_oneParam params fun id => ?_
  split
  · trivial
  · exact yields_refuseIf fun _ => rfl

theorem leavesPending_readPatternAnswer : (readPatternAnswer params s).LeavesPending s := by
  refine yields_oneParam params fun id => ?_
  split
  · trivial
  · rfl

theorem leavesPending_setLineAnswer : (setLineAnswer params s).LeavesPending s := by
  unfold setLineAnswer
  split
  · split
    · exact yields_refuseUnless fun _ =>
        yields_whenRunning (pending_of_supervises (supervises_setFilter s _ _ _))
    · trivial
  · trivial

theorem leavesPending_setLinkAnswer : (setLinkAnswer params s).LeavesPending s := by
  unfold setLinkAnswer
  split
  · exact yields_refuseUnless fun _ => yields_whenRunning rfl
  · trivial

variable {s}

/-- The executor touches the link alone, so a request leaves the queue of waiting commands when its effect does. -/
theorem pending_of_request {f : Frame} {carryOut : State → Answer}
    (h : Host.Outcome.next (s.request f carryOut) = (.next t : Host.Outcome State Fault Refusal))
    (hk : ∀ u : State, (carryOut u).LeavesPending u) : t.pending = s.pending := by
  obtain rfl := Host.Outcome.next.inj h
  exact request_keeps (P := fun u => u.pending = s.pending) (fun _ _ hu _ => hu) f rfl fun u hu =>
    yields_mono (hk u) fun _ hv => hv.trans hu

theorem pending_unknownRequestCode {tag code : Byte} (h : execUnknownRequestCode tag code params s = .next t) :
    t.pending = s.pending := by
  unfold execUnknownRequestCode at h
  split at h
  · obtain rfl := Host.Outcome.next.inj h
    rfl
  · exact pending_of_request h fun _ => trivial

/-! Events -/

theorem pending_frameEndExpiry {o : Fin 6} (h : execFrameEndExpiry o s = .next t) : t.pending = s.pending := by
  obtain rfl := Host.Outcome.next.inj h
  split
  · split <;> rfl
  · rfl

theorem pending_saveCompletion {matched : Bool} (h : execSaveCompletion matched s = .next t) : t.pending = s.pending := by
  obtain rfl := Host.Outcome.next.inj h
  split
  · split <;> rfl
  · rfl

theorem pending_secondBankInvalidation (h : execSecondBankInvalidation s = .next t) : t.pending = s.pending := by
  obtain rfl := Host.Outcome.next.inj h
  split
  · split <;> rfl
  · rfl

theorem pending_eraseCompletion (h : execEraseCompletion s = .next t) : t.pending = s.pending := by
  obtain rfl := Host.Outcome.next.inj h
  split
  · split <;> rfl
  · rfl

theorem pending_resetEnd (h : execResetEnd s = .next t) : t.pending = s.pending := by
  obtain rfl := Host.Outcome.next.inj h
  split
  · exact pending_endReset { s with resetn := .high }
  · rfl

/-- The load writes the plan, and RUNNING entry the blocks (R135, R136). -/
theorem pending_planLoadEnd (h : execPlanLoadEnd s = .next t) : t.pending = s.pending := by
  obtain rfl := Host.Outcome.next.inj h
  split
  · exact pending_enterRunning (s.loadPlan s.store.selectPlan.1) _ _
  · rfl

theorem pending_byteArrival {b : Byte} (h : execByteArrival b s = .next t) : t.pending = s.pending := by
  obtain rfl := Host.Outcome.next.inj h
  split <;> rfl

theorem pending_framingFault (h : execFramingFault s = .next t) : t.pending = s.pending := by
  obtain rfl := Host.Outcome.next.inj h
  split
  · rfl
  · split <;> rfl

theorem pending_gapExpiry (h : execGapExpiry s = .next t) : t.pending = s.pending := by
  obtain rfl := Host.Outcome.next.inj h
  split
  · split <;> rfl
  · rfl

/-- The reply that ends an accepted RESET begins and ends a reset (R131, R144, R146). -/
theorem pending_replySent (h : execReplySent s = .next t) : t.pending = s.pending := by
  obtain rfl := Host.Outcome.next.inj h
  split
  · split
    · split
      · exact (pending_endReset _).trans (pending_beginReset s .resetRequest)
      · rfl
    · rfl
  · rfl

theorem pending_silenceExpiry (h : execSilenceExpiry s = .next t) : t.pending = s.pending := by
  obtain rfl := Host.Outcome.next.inj h
  split
  · split <;> rfl
  · rfl

/-! Every command -/

/-- The meaning of every command is a next state: the manual describes nothing that stops the part. -/
theorem exec_completes (i : Instr) (s : State) : ∃ t : State, exec i s = .next t := by
  cases i <;> exact ⟨_, rfl⟩

/-- No command touches the queue of waiting commands. -/
theorem pending_exec (i : Instr) (h : exec i s = .next t) : t.pending = s.pending := by
  cases i with
  | arm tag params => exact pending_of_request h fun u => leavesPending_armAnswer u params
  | clearChannel tag params => exact pending_of_request h fun u => leavesPending_clearChannelAnswer u params
  | clearObserved tag params => exact pending_of_request h fun u => leavesPending_clearObservedAnswer u params
  | configureChannel tag params => exact pending_of_request h fun u => leavesPending_configureChannelAnswer u params
  | definePattern tag params => exact pending_of_request h fun u => leavesPending_definePatternAnswer u params
  | deletePattern tag params => exact pending_of_request h fun u => leavesPending_deletePatternAnswer u params
  | disarm tag params => exact pending_of_request h fun u => yields_oneParam params fun c => pending_disarm u c
  | erasePlan tag params =>
    exact pending_of_request h fun _ => yields_noParams params (yields_whenRunning (yields_refuseIf fun _ => rfl))
  | fetch tag params => exact pending_of_request h fun _ => yields_oneParam params fun _ => rfl
  | identify tag params => exact pending_of_request h fun _ => yields_noParams params rfl
  | inject tag params => exact pending_of_request h fun u => leavesPending_injectAnswer u params
  | pause tag params => exact pending_of_request h fun u => leavesPending_pauseAnswer u params
  | readChannel tag params => exact pending_of_request h fun _ => yields_oneParam params fun _ => rfl
  | readLine tag params => exact pending_of_request h fun _ => yields_oneParam params fun _ => rfl
  | readObserved tag params => exact pending_of_request h fun u => leavesPending_readObservedAnswer u params
  | readOutput tag params => exact pending_of_request h fun _ => yields_oneParam params fun _ => rfl
  | readPattern tag params => exact pending_of_request h fun u => leavesPending_readPatternAnswer u params
  | readReaction tag params => exact pending_of_request h fun _ => yields_oneParam params fun _ => rfl
  | rearm tag params => exact pending_of_request h fun u => leavesPending_rearmAnswer u params
  | resetRequest tag params => exact pending_of_request h fun _ => yields_noParams params (yields_whenRunning rfl)
  | resume tag params => exact pending_of_request h fun u => leavesPending_resumeAnswer u params
  | savePlan tag params =>
    exact pending_of_request h fun _ => yields_noParams params
      (yields_whenRunning (yields_refuseIf fun _ => yields_refuseIf fun _ => rfl))
  | setAttention tag params => exact pending_of_request h fun _ => yields_oneParam params fun _ => rfl
  | setLine tag params => exact pending_of_request h fun u => leavesPending_setLineAnswer u params
  | setLink tag params => exact pending_of_request h fun u => leavesPending_setLinkAnswer u params
  | setOutput tag params => exact pending_of_request h fun u => leavesPending_setOutputAnswer u params
  | setReaction tag params => exact pending_of_request h fun u => leavesPending_setReactionAnswer u params
  | status tag params => exact pending_of_request h fun _ => yields_noParams params rfl
  | rawChange l level => exact pending_of_supervises (supervises_rawChange h)
  | qualificationExpiry l => exact pending_of_supervises (supervises_qualificationExpiry h)
  | stepDeadline c =>
    obtain rfl := Host.Outcome.next.inj h
    exact (turn_deliverDeadline s c).pending
  | acquireExpiry c => exact pending_of_supervises (supervises_acquireExpiry h)
  | frameEndExpiry o => exact pending_frameEndExpiry h
  | saveCompletion matched => exact pending_saveCompletion h
  | secondBankInvalidation => exact pending_secondBankInvalidation h
  | eraseCompletion => exact pending_eraseCompletion h
  | powerOn =>
    obtain rfl := Host.Outcome.next.inj h
    exact pending_beginReset s .powerOn
  | resetLine =>
    obtain rfl := Host.Outcome.next.inj h
    exact pending_beginReset { s with resetn := .low } .resetLine
  | resetEnd => exact pending_resetEnd h
  | planLoadEnd => exact pending_planLoadEnd h
  | byteArrival b => exact pending_byteArrival h
  | framingFault => exact pending_framingFault h
  | gapExpiry => exact pending_gapExpiry h
  | replySent => exact pending_replySent h
  | silenceExpiry => exact pending_silenceExpiry h
  | unknownRequestCode tag code params => exact pending_unknownRequestCode params h

/-- Settles O3: each command has a next state, and that state has the queue of waiting commands as before. -/
theorem everyCommandCompletes : Obligations.EveryCommandCompletes := by
  intro i s
  obtain ⟨t, h⟩ := exec_completes i s
  exact ⟨t, h, pending_exec i h⟩

end Sys2Proof.Machine
